-- ==== Sys2Proof/Word.lean ====
section
/-!
DEFINITION. The value types of 00_scope.md rules R12 and R13, the ports of 30_encoding.md rule R70, and an operation as the
pair (port, word) delivered to the block.
-/

namespace Sys2Proof

/-- A byte of a link narrower than 32 bits (20_memory.md rule R51). -/
abbrev Byte := BitVec 8

/-- `u16`: a captured counter value or a tick count (10_state.md rules R25, R26, R28). -/
abbrev Counter := BitVec 16

/-- `u32`: an operation word or a response word (30_encoding.md rules R73, R74). -/
abbrev Word := BitVec 32

/-- The ports through which the three agents deliver operations (30_encoding.md rule R70). -/
inductive Port where
  /-- The event source: the external timer peripheral's interrupt lines. -/
  | event
  /-- The host: the Measurement Task. -/
  | host
  /-- Any component calling the Distance Accessor. -/
  | reader
  deriving DecidableEq, Repr

/-- An operation is a pair of a port and a 32-bit operation word (30_encoding.md rule R70). -/
structure Operation where
  port : Port
  word : Word
  deriving DecidableEq, Repr

end Sys2Proof
end

