-- ==== Sys2Proof/Config.lean ====
section
/-!
DEFINITION. The configuration of the block (00_scope.md section 4, rules R10 and R11): its fixed constants, the tunables an
implementation fixes for a run, the host's parameters, and when a configuration is well formed.
-/

namespace Sys2Proof

/-- `COUNTER_MAX`, the largest counter value (00_scope.md section 4). -/
def counterMax : Nat := 0xFFFF

/-- `BAD_VALUE`, the sentinel distance (00_scope.md section 4). -/
def badValue : Int := -1

/-- `WRAP_UNDERFLOW_MODE`: the result of the one capture pair where the wraparound formula is negative. The spec leaves it an
OPEN parameter with default `MOD16` (92_eei_decisions.md D11, 90_conflicts.md C1). -/
inductive WrapUnderflowMode where
  | mod16
  | zero
  deriving DecidableEq, Repr

/-- The block's configuration (00_scope.md rule R10). The defaults are the spec's values for this hardware. -/
structure Cfg where
  /-- `CAL_OFFSET`, the calibration constant of the duration formula. -/
  calOffset : Nat := 1
  /-- `TICK_NUM`: numerator of the echo-mode tick period in microseconds. -/
  tickNum : Nat := 5
  /-- `TICK_DEN`: denominator of the echo-mode tick period. -/
  tickDen : Nat := 2
  /-- `US_PER_CM`: microseconds per centimetre, round trip. -/
  usPerCm : Nat := 58
  /-- `WRAP_UNDERFLOW_MODE`. -/
  wrapUnderflowMode : WrapUnderflowMode := .mod16
  deriving DecidableEq, Repr

/-- The default configuration `(1, 5, 2, 58, MOD16)`. -/
def Cfg.default : Cfg := {}

/-- The parameters of the host model only: no rule of the block reads them (00_scope.md rule R10). -/
structure HostParams where
  /-- `TIMEOUT_MS`: the host's protocol timeout per wait. -/
  timeoutMs : Nat := 38
  /-- `DELAY_MS`: the host's inter-measurement delay. -/
  delayMs : Nat := 100
  /-- `PULSE_US`: the trigger pulse width, produced by the external peripheral. -/
  pulseUs : Nat := 10
  deriving DecidableEq, Repr

/-- `DMAX`: the largest converted distance (41_command_operations.md rule R141). -/
def Cfg.dmax (c : Cfg) : Nat := counterMax * c.tickNum / (c.tickDen * c.usPerCm)

/-- Conditions 1 to 5 of 00_scope.md rule R11: those that concern the block. -/
abbrev Cfg.WellFormed (c : Cfg) : Prop :=
  c.calOffset = 1 ∧ (1 ≤ c.tickNum ∧ c.tickNum ≤ 65535) ∧ (1 ≤ c.tickDen ∧ c.tickDen ≤ 65535) ∧
    (1 ≤ c.usPerCm ∧ c.usPerCm ≤ 65535) ∧ c.dmax ≤ 2 ^ 31 - 1

/-- All six conditions of 00_scope.md rule R11, the last one together with the host's timeout. -/
abbrev Cfg.WellFormedWith (c : Cfg) (p : HostParams) : Prop :=
  c.WellFormed ∧ counterMax * c.tickNum > p.timeoutMs * 1000 * c.tickDen

end Sys2Proof
end

