-- ==== Sys2Proof/Syntax.lean ====
section
/-!
DEFINITION. The operations of the block: one constructor per row of spec/opcode_table.json (30_encoding.md rules R76, R77).
-/

namespace Sys2Proof

/-- An accepted operation. Its port is fixed by its row, but for RD_DISTANCE, which two ports accept and which therefore
carries the port it arrived on: its response goes back there (30_encoding.md rule R73). -/
inductive Instr where
  /-- EV_UPDATE: the timer's reload/update interrupt (rule R104). -/
  | evUpdate
  /-- EV_CAPTURE v: the timer's input-capture interrupt with the captured counter value (rule R105). -/
  | evCapture (v : Counter)
  /-- START_CYCLE (rule R130). -/
  | startCycle
  /-- ARM_ECHO (rule R133). -/
  | armEcho
  /-- ACQUIRE (rule R135). -/
  | acquire
  /-- CONVERT_PUBLISH (rule R140). -/
  | convertPublish
  /-- PUBLISH_BAD (rule R145). -/
  | publishBad
  /-- RD_DISTANCE, issued on port `port` (rule R160). -/
  | rdDistance (port : Port)
  /-- RD_STATUS (rule R161). -/
  | rdStatus
  /-- RD_CAP_FIRST (rule R162). -/
  | rdCapFirst
  /-- RD_CAP_SECOND (rule R163). -/
  | rdCapSecond
  /-- RD_RAW_DURATION (rule R164). -/
  | rdRawDuration
  deriving DecidableEq, Repr

end Sys2Proof
end

