-- ==== Sys2Proof/WellFormed.lean ====
section
/-!
DEFINITION. Which terms of `Instr` stand for an operation of the block: the one check is that RD_DISTANCE names a port that
accepts it (30_encoding.md rules R76 and R78).
-/

namespace Sys2Proof

/-- A term of `Instr` is well formed when the port it carries is one its row of rule R76 lists: RD_DISTANCE is accepted on
HOST and READER. Every counter value 0x0000 to 0xFFFF is legal for EV_CAPTURE (rule R75). -/
def Instr.wellFormed : Instr → Bool
  | .rdDistance port => port == .host || port == .reader
  | .evUpdate => true
  | .evCapture _ => true
  | .startCycle => true
  | .armEcho => true
  | .acquire => true
  | .convertPublish => true
  | .publishBad => true
  | .rdStatus => true
  | .rdCapFirst => true
  | .rdCapSecond => true
  | .rdRawDuration => true

end Sys2Proof
end

