-- ==== Sys2Proof/Decode.lean ====
section
/-!
DEFINITION. The operation word, the opcode map, decoding and encoding (30_encoding.md rules R74 to R82), and how a word
crosses a narrower link (20_memory.md rules R51 and R52).
-/

namespace Sys2Proof

/-! ## The operation word (rule R74) -/

/-- `OPC = w[31:24]`. -/
def opcField (w : Word) : BitVec 8 := w.extractLsb' 24 8

/-- `RSV = w[23:16]`, reserved, must be zero. -/
def rsvField (w : Word) : BitVec 8 := w.extractLsb' 16 8

/-- `ARG = w[15:0]`. -/
def argField (w : Word) : Counter := w.extractLsb' 0 16

/-- The word with these `OPC` and `ARG` and a zero `RSV`: `(OPC << 24) | ARG` (rule R83). -/
def opwOf (opc : BitVec 8) (arg : Counter) : Word := opc.setWidth 32 <<< 24 ||| arg.setWidth 32

/-! ## The opcode map (rule R76) -/

/-- The twelve mnemonics. -/
inductive Opcode where
  | evUpdate
  | evCapture
  | startCycle
  | armEcho
  | acquire
  | convertPublish
  | publishBad
  | rdDistance
  | rdStatus
  | rdCapFirst
  | rdCapSecond
  | rdRawDuration
  deriving DecidableEq, Repr

/-- The rows of rule R76, in the table's order. -/
def Opcode.all : List Opcode :=
  [.evUpdate, .evCapture, .startCycle, .armEcho, .acquire, .convertPublish, .publishBad, .rdDistance, .rdStatus,
    .rdCapFirst, .rdCapSecond, .rdRawDuration]

/-- Column OPC of rule R76. -/
def Opcode.code : Opcode → BitVec 8
  | .evUpdate => 0x01
  | .evCapture => 0x02
  | .startCycle => 0x10
  | .armEcho => 0x11
  | .acquire => 0x12
  | .convertPublish => 0x13
  | .publishBad => 0x14
  | .rdDistance => 0x20
  | .rdStatus => 0x21
  | .rdCapFirst => 0x22
  | .rdCapSecond => 0x23
  | .rdRawDuration => 0x24

/-- Column port(s) of rule R76. -/
def Opcode.ports : Opcode → List Port
  | .evUpdate => [.event]
  | .evCapture => [.event]
  | .startCycle => [.host]
  | .armEcho => [.host]
  | .acquire => [.host]
  | .convertPublish => [.host]
  | .publishBad => [.host]
  | .rdDistance => [.host, .reader]
  | .rdStatus => [.host]
  | .rdCapFirst => [.host]
  | .rdCapSecond => [.host]
  | .rdRawDuration => [.host]

/-- The match value of a row: `OPC << 24` (rule R76). -/
def Opcode.matchWord (o : Opcode) : Word := o.code.setWidth 32 <<< 24

/-- The mask of a row: EV_CAPTURE leaves the operand free (rule R76). -/
def Opcode.maskWord : Opcode → Word
  | .evCapture => 0xFFFF0000
  | .evUpdate => 0xFFFFFFFF
  | .startCycle => 0xFFFFFFFF
  | .armEcho => 0xFFFFFFFF
  | .acquire => 0xFFFFFFFF
  | .convertPublish => 0xFFFFFFFF
  | .publishBad => 0xFFFFFFFF
  | .rdDistance => 0xFFFFFFFF
  | .rdStatus => 0xFFFFFFFF
  | .rdCapFirst => 0xFFFFFFFF
  | .rdCapSecond => 0xFFFFFFFF
  | .rdRawDuration => 0xFFFFFFFF

/-- The row an OPC byte names, none where it is reserved (rule R81). -/
def Opcode.ofCode (b : BitVec 8) : Option Opcode := Opcode.all.find? (fun o => o.code == b)

/-! ## Decoding (rule R79) -/

/-- Why the decoder refuses a word, with the information 60_exceptions.md rule R202 records. Raised by `decode` alone, and
by RD_DISTANCE's meaning for a term that carries a port its row does not list; safe: a refused word has no effect but the
mark REFUSED. -/
inductive DecodeRefusal where
  /-- X1: the OPC is not assigned. -/
  | reservedOpcode (opw : Word)
  /-- X2: the field RSV is not zero. -/
  | reservedFieldNonzero (opw : Word)
  /-- X3: a non-zero ARG outside EV_CAPTURE. -/
  | argNotZero (opw : Word)
  /-- X4: the opcode is not accepted on the port it arrived on. -/
  | wrongPort (opw : Word) (port : Port)
  deriving DecidableEq, Repr

/-- The decoder's verdict on an operation (00_scope.md rule R14, 30_encoding.md rule R79). -/
inductive Verdict where
  | accepted (i : Instr)
  | refused (r : DecodeRefusal)
  deriving DecidableEq, Repr

/-- The operation an opcode names, with its operand and port. -/
def Instr.ofOpcode (o : Opcode) (arg : Counter) (port : Port) : Instr :=
  match o with
  | .evUpdate => .evUpdate
  | .evCapture => .evCapture arg
  | .startCycle => .startCycle
  | .armEcho => .armEcho
  | .acquire => .acquire
  | .convertPublish => .convertPublish
  | .publishBad => .publishBad
  | .rdDistance => .rdDistance port
  | .rdStatus => .rdStatus
  | .rdCapFirst => .rdCapFirst
  | .rdCapSecond => .rdCapSecond
  | .rdRawDuration => .rdRawDuration

/-- Decoding, total on every word and every port; the first check that fails names the refusal (rule R79). -/
def decode (op : Operation) : Verdict :=
  match Opcode.ofCode (opcField op.word) with
  | none => .refused (.reservedOpcode op.word)
  | some o =>
    if rsvField op.word ≠ 0 then .refused (.reservedFieldNonzero op.word)
    else if o ≠ .evCapture ∧ argField op.word ≠ 0 then .refused (.argNotZero op.word)
    else if op.port ∉ o.ports then .refused (.wrongPort op.word op.port)
    else .accepted (Instr.ofOpcode o (argField op.word) op.port)

/-! ## Encoding -/

/-- The row of rule R76 an operation belongs to. -/
def Instr.opcode : Instr → Opcode
  | .evUpdate => .evUpdate
  | .evCapture _ => .evCapture
  | .startCycle => .startCycle
  | .armEcho => .armEcho
  | .acquire => .acquire
  | .convertPublish => .convertPublish
  | .publishBad => .publishBad
  | .rdDistance _ => .rdDistance
  | .rdStatus => .rdStatus
  | .rdCapFirst => .rdCapFirst
  | .rdCapSecond => .rdCapSecond
  | .rdRawDuration => .rdRawDuration

/-- The field ARG of an operation: EV_CAPTURE's counter value, zero elsewhere (rules R74, R75). -/
def Instr.arg : Instr → Counter
  | .evCapture v => v
  | .evUpdate => 0
  | .startCycle => 0
  | .armEcho => 0
  | .acquire => 0
  | .convertPublish => 0
  | .publishBad => 0
  | .rdDistance _ => 0
  | .rdStatus => 0
  | .rdCapFirst => 0
  | .rdCapSecond => 0
  | .rdRawDuration => 0

/-- The port an operation is delivered on (rule R78). -/
def Instr.port : Instr → Port
  | .evUpdate => .event
  | .evCapture _ => .event
  | .startCycle => .host
  | .armEcho => .host
  | .acquire => .host
  | .convertPublish => .host
  | .publishBad => .host
  | .rdDistance p => p
  | .rdStatus => .host
  | .rdCapFirst => .host
  | .rdCapSecond => .host
  | .rdRawDuration => .host

/-- The operation (port, word) that stands for an instruction. -/
def encode (i : Instr) : Operation := ⟨i.port, opwOf i.opcode.code i.arg⟩

/-! ## Narrow links (20_memory.md rules R51 and R52) -/

/-- A word as it crosses a byte link: least significant byte first. -/
def opwToBytes (w : Word) : List Byte :=
  [w.extractLsb' 0 8, w.extractLsb' 8 8, w.extractLsb' 16 8, w.extractLsb' 24 8]

/-- The next word of a byte link and the bytes after it; a transport that delivers fewer than 32 bits delivers no word. -/
def opwOfBytes : List Byte → Option (Word × List Byte)
  | b0 :: b1 :: b2 :: b3 :: rest =>
    some (BitVec.ofNat 32 (b0.toNat + 2 ^ 8 * b1.toNat + 2 ^ 16 * b2.toNat + 2 ^ 24 * b3.toNat), rest)
  | _ => none

/-- Decoding from a byte link at a port: none where no whole word has arrived, else the decoder's verdict and the rest. -/
def decodeBytes (port : Port) (bytes : List Byte) : Option (Verdict × List Byte) :=
  match opwOfBytes bytes with
  | none => none
  | some (w, rest) => some (decode ⟨port, w⟩, rest)

/-! ## Words given without a port -/

/-- The port assumed for a word that comes without one: the syntax's default, EVENT for class 0x0 and HOST for classes 0x1
and 0x2 (rule R83). DESIGN CHOICE: the other classes are reserved, and take HOST (log entry 10). -/
def defaultPort (w : Word) : Port := if w.extractLsb' 28 4 = 0 then .event else .host

/-- The operation whose word has the low `nbits` bits of `w`, all others zero, on the default port. -/
def operationOfTableWord (nbits w : Nat) : Operation :=
  let word := BitVec.ofNat 32 (w % 2 ^ nbits)
  ⟨defaultPort word, word⟩

/-- What the decoder reads from a word numbered as spec/opcode_table.json numbers it, laid out least significant byte
first and read back as a transport would deliver it. -/
def decodeTableWord (nbits w : Nat) : Option Instr :=
  let op := operationOfTableWord nbits w
  match decodeBytes op.port (opwToBytes op.word) with
  | some (.accepted i, _) => some i
  | _ => none

end Sys2Proof
end

