-- ==== Sys2Proof/Machine/State.lean ====
section
/-!
DEFINITION. The state of the block (10_state.md), the reasons recorded when an operation faults or a word is refused
(60_exceptions.md rule R202), and the state after reset (70_reset_and_hazards.md rule R230).
-/

namespace Sys2Proof.Machine

/-- `PHASE`: which half of the protocol is active (rule R23). -/
inductive Phase where
  | trigger
  | echo
  deriving DecidableEq, Repr

/-- `EDGE`: the edge awaited, meaningful only while the phase is Echo (rule R24). -/
inductive EdgeState where
  | awaitingRisingEdge
  | awaitingFallingEdge
  deriving DecidableEq, Repr

/-- `CAP_POL`: the edge polarity asked of the external input-capture channel (rule R29). -/
inductive Polarity where
  | rising
  | falling
  deriving DecidableEq, Repr

/-- The output events of rule R72. -/
inductive OutEvent where
  /-- A request to the peripheral to clear its update-interrupt pending flag. -/
  | clrUpdateFlag
  /-- A request to clear its input-capture pending flag. -/
  | clrCaptureFlag
  deriving DecidableEq, Repr

/-- The elements that can hold `⊥` (rule R31). -/
inductive Element where
  | capFirst
  | capSecond
  | rawDuration
  deriving DecidableEq, Repr

/-- A response word and the port of the agent it is returned to (00_scope.md rule R14, 30_encoding.md rule R73). -/
structure Response where
  port : Port
  word : Word
  deriving DecidableEq, Repr

/-- The reasons an operation ends in the spec's `raise Fault(reason, info)` (60_exceptions.md rules R202 and R203). The
machine does not stop on one: the operation ends with a next state that carries the mark FAULTED and this reason in
`faultLog`, and later operations are performed, as program P6 of 95_test_vectors.md has them (log entry 1). -/
inductive Fault where
  /-- F1. Raised by RD_CAP_FIRST, RD_CAP_SECOND, RD_RAW_DURATION, CONVERT_PUBLISH and EV_CAPTURE's falling branch when the
  element they read holds `⊥`. Safe for statements about states whose mark FAULTED is clear; unsafe for a statement that
  takes the marked state as the chip's, which returns some value there. -/
  | unwrittenRead (e : Element)
  deriving DecidableEq, Repr

/-- The reasons a step stops without a meaning. -/
inductive Refusal where
  /-- An instruction without a meaning in `exec`; every arm has one, so nothing raises this. Safe. -/
  | notModelled (mnemonic : String)
  deriving DecidableEq, Repr

/-- The state: the architectural elements of 10_state.md rule R22, the marks of rule R33, the configuration of the run, and
the model's own input and records. -/
structure State where
  /-- `PHASE` (rule R23). -/
  phase : Phase
  /-- `EDGE` (rule R24). -/
  edge : EdgeState
  /-- `CAP_FIRST`, of the spec's type "u16 or ⊥" (section 2, rule R25); `none` is `⊥`, "holds no value", which the spec gives
  as its state after reset (rules R31, R230). -/
  capFirst : Option Counter
  /-- `CAP_SECOND`, "u16 or ⊥" (section 2, rules R26, R31). -/
  capSecond : Option Counter
  /-- `RAW_DURATION`, "u16 or ⊥" (section 2, rules R28, R31). -/
  rawDuration : Option Counter
  /-- `SIG`, true when a signal is pending (rule R27). -/
  sig : Bool
  /-- `CAP_POL` (rule R29). -/
  capPol : Polarity
  /-- `DISTANCE`, two's complement (rule R30). -/
  distance : Word
  /-- `OUT`, the output trace, oldest first (rule R34). -/
  out : List OutEvent
  /-- The mark `FAULTED` (rule R33). -/
  faulted : Bool
  /-- The mark `REFUSED` (rule R33). -/
  refused : Bool
  /-- The information recorded with each fault, oldest first (60_exceptions.md rule R202; log entry 7). -/
  faultLog : List Fault
  /-- The information recorded with each refused word, oldest first (rule R202; log entry 7). -/
  refusalLog : List DecodeRefusal
  /-- The response words given so far, oldest first (30_encoding.md rule R73; log entry 6). -/
  responses : List Response
  /-- The operations delivered and not yet performed, in the operation order (20_memory.md rule R56; log entry 3). -/
  inbox : List Operation
  /-- The configuration of the run. It is no hardware state and no operation writes it (rule R32; log entry 5). -/
  cfg : Cfg
  deriving DecidableEq, Repr

/-- The state right after reset (70_reset_and_hazards.md rule R230). The fields `faultLog`, `refusalLog`, `responses` and
`inbox` are the model's own and start empty, and `cfg` starts at the spec's defaults (DESIGN CHOICE, log entries 3, 5, 6, 7). -/
def State.reset : State where
  phase := .trigger
  edge := .awaitingRisingEdge
  capFirst := none
  capSecond := none
  rawDuration := none
  sig := false
  capPol := .rising
  distance := BitVec.ofInt 32 badValue
  out := []
  faulted := false
  refused := false
  faultLog := []
  refusalLog := []
  responses := []
  inbox := []
  cfg := Cfg.default

end Sys2Proof.Machine
end

