-- ==== Sys2Proof/Machine/Operands.lean ====
section
/-!
DEFINITION. Values: the widening and narrowing functions of 00_scope.md rule R13, the elements an operation can read, the
duration function of 40_event_operations.md rule R101 and the conversion function of 41_command_operations.md rule R141.
-/

namespace Sys2Proof.Machine

/-- `zext_32`: widening with zero bits (rule R13). -/
def zext32 (v : Counter) : Word := v.setWidth 32

/-- `sext_32`: widening by copying the sign bit (rule R13). No operation of the block uses it on a counter. -/
def sext32 (v : Counter) : Word := v.signExtend 32

/-- `enc_s32`: the 32-bit pattern `i mod 2^32` (rule R13). -/
def encS32 (i : Int) : Word := BitVec.ofInt 32 i

/-- `floor_div(a, b)` for `a >= 0` and `b > 0` (rule R13). -/
def floorDiv (a b : Nat) : Nat := a / b

/-- What `CAP_FIRST`, `CAP_SECOND` or `RAW_DURATION` holds, `none` for `⊥` (rule R31). -/
def State.element (s : State) : Element → Option Counter
  | .capFirst => s.capFirst
  | .capSecond => s.capSecond
  | .rawDuration => s.rawDuration

/-- `duration(first, second)`: the elapsed ticks with wraparound correction, computed in unbounded integers (rule R101). The
negative result of the one pair (0xFFFF, 0x0000) is what WRAP_UNDERFLOW_MODE says (90_conflicts.md C1). -/
def duration (c : Cfg) (first second : Counter) : Counter :=
  let t : Int :=
    if second.toNat > first.toNat then (second.toNat : Int) - first.toNat - c.calOffset
    else ((counterMax : Int) - first.toNat) + second.toNat - c.calOffset
  if t ≥ 0 then BitVec.ofInt 16 t
  else match c.wrapUnderflowMode with
    | .mod16 => BitVec.ofInt 16 t
    | .zero => 0

/-- `convert(raw)`: the distance in centimetres, the floor of the exact quotient (rule R141, 90_conflicts.md C6). -/
def convert (c : Cfg) (raw : Counter) : Int :=
  (floorDiv (raw.toNat * c.tickNum) (c.tickDen * c.usPerCm) : Nat)

end Sys2Proof.Machine
end

