-- ==== Sys2Proof/Machine/Ops.lean ====
section
/-!
DEFINITION. The named operations on the state that every meaning is written over: the primitives of 00_scope.md rule R14,
the signal slot (10_state.md rule R27), taking a fault and taking a refusal (60_exceptions.md rule R203), and how an
operation comes to the block (20_memory.md rule R56).
-/

namespace Sys2Proof.Machine

/-- `emit o` (rules R14 and R72). -/
def State.emit (s : State) (o : OutEvent) : State := { s with out := s.out ++ [o] }

/-- `respond w`, returned to the agent on `port` (rules R14 and R73). -/
def State.respond (s : State) (port : Port) (w : Word) : State := { s with responses := s.responses ++ [⟨port, w⟩] }

/-- Set the signal slot; a slot already set stays set and the second signal is lost (rule R27). -/
def State.raiseSignal (s : State) : State := { s with sig := true }

/-- Clear the signal slot (rule R27). -/
def State.clearSignal (s : State) : State := { s with sig := false }

/-- `raise Fault(f)`: no element is written, nothing is emitted, no response is given, and the mark FAULTED is set; later
operations are performed (rules R14, R33, R203; log entry 1). -/
def State.takeFault (s : State) (f : Fault) : State := { s with faulted := true, faultLog := s.faultLog ++ [f] }

/-- A refused operation word: nothing changes but the mark REFUSED (rules R80 and R203; log entry 2). -/
def State.takeRefusal (s : State) (r : DecodeRefusal) : State :=
  { s with refused := true, refusalLog := s.refusalLog ++ [r] }

/-- `R(e)` followed by `k` on the value read; where `e` holds `⊥` the operation ends in the fault the spec names for it,
UNWRITTEN_READ, and no value is picked (00_scope.md rule R14, 10_state.md rule R31, 60_exceptions.md rules R202 and R203,
93_implementation_defined.md entry U1). -/
def State.readElement (s : State) (e : Element) (k : Counter → State) : State :=
  match s.element e with
  | some v => k v
  | none => s.takeFault (.unwrittenRead e)

/-- The next operation of the operation order and the state from which it is performed; none where no agent has delivered
one (rule R56). -/
def State.nextOperation (s : State) : Option (Operation × State) :=
  match s.inbox with
  | [] => none
  | op :: rest => some (op, { s with inbox := rest })

/-- Deliver an operation so that it is the next one performed. -/
def State.present (s : State) (op : Operation) : State := { s with inbox := op :: s.inbox }

end Sys2Proof.Machine
end

