-- ==== Sys2Proof/Machine/Command.lean ====
section
/-!
DEFINITION. The command operations of the host (41_command_operations.md). None checks the phase and none waits (rule R129);
each responds on the port HOST (30_encoding.md rule R73).
-/

namespace Sys2Proof.Machine

/-- START_CYCLE (rule R130). -/
def execStartCycle (s : State) : Host.Outcome State Fault Refusal :=
  .next (({ s with phase := .trigger, edge := .awaitingRisingEdge }.clearSignal).respond .host 0)

/-- ARM_ECHO (rule R133). -/
def execArmEcho (s : State) : Host.Outcome State Fault Refusal :=
  .next (({ s with edge := .awaitingRisingEdge, capPol := .rising }.emit .clrCaptureFlag).respond .host 0)

/-- ACQUIRE: test and clear of the signal slot, responding what it held (rule R135). -/
def execAcquire (s : State) : Host.Outcome State Fault Refusal :=
  .next (if s.sig then s.clearSignal.respond .host 1 else s.respond .host 0)

/-- CONVERT_PUBLISH (rule R140). -/
def execConvertPublish (s : State) : Host.Outcome State Fault Refusal :=
  .next (s.readElement .rawDuration fun raw =>
    { s with distance := encS32 (convert s.cfg raw) }.respond .host 0)

/-- PUBLISH_BAD (rule R145). -/
def execPublishBad (s : State) : Host.Outcome State Fault Refusal :=
  .next ({ s with distance := encS32 badValue }.respond .host 0)

end Sys2Proof.Machine
end

