-- ==== Sys2Proof/Machine/Event.lean ====
section
/-!
DEFINITION. The event operations: the capture state machine (40_event_operations.md). They get no response (30_encoding.md
rule R73) and emit one flag clear whatever branch they take (rule R100).
-/

namespace Sys2Proof.Machine

/-- EV_UPDATE (rule R104). -/
def execEvUpdate (s : State) : Host.Outcome State Fault Refusal :=
  .next (match s.phase with
    | .trigger => ({ s with phase := .echo }.raiseSignal).emit .clrUpdateFlag
    | .echo => s.emit .clrUpdateFlag)

/-- EV_CAPTURE, rising branch (rule R106). -/
def captureRising (v : Counter) (s : State) : State :=
  { s with capFirst := some v, capPol := .falling, edge := .awaitingFallingEdge }.emit .clrCaptureFlag

/-- EV_CAPTURE, falling branch (rule R107): the duration is taken against CAP_FIRST, and EDGE, PHASE and CAP_POL stay. -/
def captureFalling (v : Counter) (s : State) : State :=
  s.readElement .capFirst fun first =>
    ({ s with capSecond := some v, rawDuration := some (duration s.cfg first v) }.raiseSignal).emit .clrCaptureFlag

/-- EV_CAPTURE v (rule R105): the branch PHASE and EDGE select; in Trigger the value is discarded (rule R108). -/
def execEvCapture (v : Counter) (s : State) : Host.Outcome State Fault Refusal :=
  .next (match s.phase, s.edge with
    | .echo, .awaitingRisingEdge => captureRising v s
    | .echo, .awaitingFallingEdge => captureFalling v s
    | .trigger, _ => s.emit .clrCaptureFlag)

end Sys2Proof.Machine
end

