-- ==== Sys2Proof/Machine/Flags.lean ====
section
/-!
DEFINITION. The status view and the output levels: the encodings of the one-bit elements (10_state.md section 2), STATUS
(rule R35) and the outputs `cap_pol` and `sig` (30_encoding.md rule R71).
-/

namespace Sys2Proof.Machine

/-- 0 = Trigger, 1 = Echo (rule R23). -/
def Phase.bit : Phase → BitVec 1
  | .trigger => 0
  | .echo => 1

/-- 0 = AwaitingRisingEdge, 1 = AwaitingFallingEdge (rule R24). -/
def EdgeState.bit : EdgeState → BitVec 1
  | .awaitingRisingEdge => 0
  | .awaitingFallingEdge => 1

/-- 0 = Rising, 1 = Falling (rule R29). -/
def Polarity.bit : Polarity → BitVec 1
  | .rising => 0
  | .falling => 1

/-- The level `cap_pol`: the current value of CAP_POL (rule R71). -/
def State.capPolOutput (s : State) : BitVec 1 := s.capPol.bit

/-- The level `sig`: the current value of SIG (rule R71). -/
def State.sigOutput (s : State) : BitVec 1 := BitVec.ofBool s.sig

/-- `STATUS = zext_32({CAP_POL, SIG, EDGE, PHASE})` (rule R35). -/
def State.statusWord (s : State) : Word :=
  (s.capPolOutput ++ (s.sigOutput ++ (s.edge.bit ++ s.phase.bit))).setWidth 32

end Sys2Proof.Machine
end

