-- ==== Sys2Proof/Machine/Read.lean ====
section
/-!
DEFINITION. The read operations (42_read_operations.md). They write no element and emit nothing (rule R159).
-/

namespace Sys2Proof.Machine

/-- RD_DISTANCE on `port` (rule R160). Its row lists HOST and READER; a term that carries another port is the refusal
WRONG_PORT of rule R79, which the decoder never yields as an instruction (log entry 11). -/
def execRdDistance (port : Port) (s : State) : Host.Outcome State Fault Refusal :=
  .next (if port ∈ Opcode.rdDistance.ports then s.respond port s.distance
    else s.takeRefusal (.wrongPort (encode (.rdDistance port)).word port))

/-- RD_STATUS (rule R161). -/
def execRdStatus (s : State) : Host.Outcome State Fault Refusal := .next (s.respond .host s.statusWord)

/-- The response of the three sample reads: the element, zero-extended. -/
def State.respondElement (s : State) (e : Element) : State := s.readElement e fun v => s.respond .host (zext32 v)

/-- RD_CAP_FIRST (rule R162). -/
def execRdCapFirst (s : State) : Host.Outcome State Fault Refusal := .next (s.respondElement .capFirst)

/-- RD_CAP_SECOND (rule R163). -/
def execRdCapSecond (s : State) : Host.Outcome State Fault Refusal := .next (s.respondElement .capSecond)

/-- RD_RAW_DURATION (rule R164). -/
def execRdRawDuration (s : State) : Host.Outcome State Fault Refusal := .next (s.respondElement .rawDuration)

end Sys2Proof.Machine
end

