-- ==== Sys2Proof/Machine/Dispatch.lean ====
section
/-!
DEFINITION. One arm per operation of the table.
-/

namespace Sys2Proof.Machine

/-- Performing one decoded operation (00_scope.md rule R16: one atomic update). -/
def exec (i : Instr) (s : State) : Host.Outcome State Fault Refusal :=
  match i with
  -- event operations, 40_event_operations.md
  | .evUpdate => Sys2Proof.Machine.execEvUpdate s
  | .evCapture v => Sys2Proof.Machine.execEvCapture v s
  -- command operations, 41_command_operations.md
  | .startCycle => Sys2Proof.Machine.execStartCycle s
  | .armEcho => Sys2Proof.Machine.execArmEcho s
  | .acquire => Sys2Proof.Machine.execAcquire s
  | .convertPublish => Sys2Proof.Machine.execConvertPublish s
  | .publishBad => Sys2Proof.Machine.execPublishBad s
  -- read operations, 42_read_operations.md
  | .rdDistance port => Sys2Proof.Machine.execRdDistance port s
  | .rdStatus => Sys2Proof.Machine.execRdStatus s
  | .rdCapFirst => Sys2Proof.Machine.execRdCapFirst s
  | .rdCapSecond => Sys2Proof.Machine.execRdCapSecond s
  | .rdRawDuration => Sys2Proof.Machine.execRdRawDuration s

end Sys2Proof.Machine
end

