-- ==== Sys2Proof/Machine/Perform.lean ====
section
/-!
DEFINITION. Performing one delivered operation: decoding it, then its meaning or its refusal.
-/

namespace Sys2Proof.Machine

/-- An operation `(port, w)` is decoded (30_encoding.md rule R79) and performed; a refused word sets the mark REFUSED and
does nothing else (rule R80; log entry 2). -/
def perform (op : Operation) (s : State) : Host.Outcome State Fault Refusal :=
  match decode op with
  | .accepted i => exec i s
  | .refused r => .next (s.takeRefusal r)

end Sys2Proof.Machine
end

