-- ==== Sys2Proof/Machine/Step.lean ====
section
/-!
DEFINITION. One step: the next operation of the operation order (20_memory.md rule R56).
-/

namespace Sys2Proof.Machine

/-- The block performs the next delivered operation; with none delivered it keeps its state (DESIGN CHOICE, log entry 4). -/
def step (s : State) : Host.Outcome State Fault Refusal :=
  match s.nextOperation with
  | none => .next s
  | some (op, s') => perform op s'

/-- `s` with the table's word delivered as its next operation, on the word's default port (log entries 9 and 10). -/
def State.withFetchWord (s : State) (nbits w : Nat) : State := s.present (operationOfTableWord nbits w)

end Sys2Proof.Machine
end

