-- ==== Sys2Proof/Laws/Decode.lean ====
section
/-!
SUPPORT. The fields of a built word, the opcode map, and everything the decoder can answer.
-/

namespace Sys2Proof

@[simp] theorem opcField_opwOf (opc : BitVec 8) (arg : Counter) : opcField (opwOf opc arg) = opc := by
  ext i hi
  simp [opcField, opwOf, BitVec.getLsbD_of_ge arg (24 + i) (by omega), show 24 + i < 32 by omega,
    show ¬24 + i < 24 by omega, BitVec.getLsbD_eq_getElem hi]

@[simp] theorem rsvField_opwOf (opc : BitVec 8) (arg : Counter) : rsvField (opwOf opc arg) = 0 := by
  ext i hi
  simp [rsvField, opwOf]
  omega

@[simp] theorem argField_opwOf (opc : BitVec 8) (arg : Counter) : argField (opwOf opc arg) = arg := by
  ext i hi
  simp [argField, opwOf, show i < 32 by omega, show i < 24 by omega, BitVec.getLsbD_eq_getElem hi]

/-- A word with a zero reserved field is made of its other two fields. -/
theorem opwOf_fields {w : Word} (h : rsvField w = 0) : opwOf (opcField w) (argField w) = w := by
  ext i hi
  have hr : ∀ j, 16 ≤ j → j < 24 → w.getLsbD j = false := fun j h1 h2 => by
    have := congrArg (BitVec.getLsbD · (j - 16)) h
    simpa [rsvField, show j - 16 < 8 by omega, show 16 + (j - 16) = j by omega] using this
  simp only [opwOf, opcField, argField, BitVec.getElem_or, BitVec.getElem_shiftLeft, BitVec.getElem_setWidth]
  by_cases h24 : i < 24
  · by_cases h16 : i < 16
    · simp [h24, h16, BitVec.getLsbD_eq_getElem hi]
    · simp [h24, h16, ← BitVec.getLsbD_eq_getElem, hr i (by omega) h24]
  · simp [h24, show ¬i < 16 by omega, show i - 24 < 8 by omega, show 24 + (i - 24) = i by omega,
      BitVec.getLsbD_eq_getElem hi]

@[simp] theorem Opcode.ofCode_code (o : Opcode) : Opcode.ofCode o.code = some o := by cases o <;> rfl

theorem Opcode.code_of_ofCode {b : BitVec 8} {o : Opcode} (h : Opcode.ofCode b = some o) : o.code = b := by
  simpa using List.find?_some h

/-- Everything the decoder can answer, in the order of its checks. -/
theorem decode_cases (op : Operation) :
    (Opcode.ofCode (opcField op.word) = none ∧ decode op = .refused (.reservedOpcode op.word)) ∨
      ∃ o, Opcode.ofCode (opcField op.word) = some o ∧
        ((rsvField op.word ≠ 0 ∧ decode op = .refused (.reservedFieldNonzero op.word)) ∨
          (rsvField op.word = 0 ∧ o ≠ .evCapture ∧ argField op.word ≠ 0 ∧ decode op = .refused (.argNotZero op.word)) ∨
          (rsvField op.word = 0 ∧ (o = .evCapture ∨ argField op.word = 0) ∧ op.port ∉ o.ports ∧
            decode op = .refused (.wrongPort op.word op.port)) ∨
          (rsvField op.word = 0 ∧ (o = .evCapture ∨ argField op.word = 0) ∧ op.port ∈ o.ports ∧
            decode op = .accepted (Instr.ofOpcode o (argField op.word) op.port))) := by
  unfold decode
  cases h : Opcode.ofCode (opcField op.word) with
  | none => exact .inl ⟨rfl, rfl⟩
  | some o =>
    refine .inr ⟨o, rfl, ?_⟩
    by_cases h1 : rsvField op.word = 0
    · by_cases h2 : o ≠ .evCapture ∧ argField op.word ≠ 0
      · exact .inr (.inl ⟨h1, h2.1, h2.2, by simp only [h1, ne_eq, not_true_eq_false, if_false]; rw [if_pos h2]⟩)
      · have h3 : o = .evCapture ∨ argField op.word = 0 := by
          by_cases ho : o = .evCapture
          · exact .inl ho
          · exact .inr (by simpa [ho] using h2)
        refine .inr (.inr ?_)
        by_cases h4 : op.port ∈ o.ports
        · exact .inr ⟨h1, h3, h4, by simp only [h1, ne_eq, not_true_eq_false, if_false]; rw [if_neg h2, if_neg (fun hn => hn h4)]⟩
        · exact .inl ⟨h1, h3, h4, by simp only [h1, ne_eq, not_true_eq_false, if_false]; rw [if_neg h2, if_pos h4]⟩
    · exact .inl ⟨h1, if_pos h1⟩

end Sys2Proof
end

