-- ==== Sys2Proof/Laws/PerInstr.lean ====
section
/-!
SUPPORT. A fact of every operation as syntax: the fields of its encoding (30_encoding.md rules R74 to R76).
-/

namespace Sys2Proof.Laws

/-- The word of an operation has its row's OPC, a zero RSV and its operand as ARG, and matches its row's match and mask. -/
def EncodedFields.Statement (i : Instr) : Prop :=
  opcField (encode i).word = i.opcode.code ∧ rsvField (encode i).word = 0 ∧ argField (encode i).word = i.arg ∧
    (encode i).word &&& i.opcode.maskWord = i.opcode.matchWord

/-- The three fields of any encoded word; only the mask is left to each operation. -/
theorem encodedFields_of_mask {i : Instr} (h : (encode i).word &&& i.opcode.maskWord = i.opcode.matchWord) :
    EncodedFields.Statement i := ⟨opcField_opwOf _ _, rsvField_opwOf _ _, argField_opwOf _ _, h⟩

theorem EncodedFields.evUpdate : EncodedFields.Statement .evUpdate := encodedFields_of_mask (by decide)
theorem EncodedFields.evCapture (v : Counter) : EncodedFields.Statement (.evCapture v) := by
  have hlow : ∀ i < 16, (0xFFFF0000#32).getLsbD i = false ∧ (0x02000000#32).getLsbD i = false := by decide
  have hhigh : ∀ i < 32, 16 ≤ i →
      (opwOf 2 0 &&& 0xFFFF0000#32).getLsbD i = (0x02000000#32).getLsbD i := by decide
  have hmask : ∀ i < 32, (0x02000000#32).getLsbD i = true → (0xFFFF0000#32).getLsbD i = true := by decide
  have hmatch : Opcode.evCapture.matchWord = 0x02000000#32 := by decide
  refine encodedFields_of_mask ?_
  simp only [encode, Instr.opcode, Instr.arg, Opcode.code, Opcode.maskWord, hmatch]
  refine BitVec.eq_of_getLsbD_eq fun i hi => ?_
  by_cases h : i < 16
  · simp [hlow i h]
  · rw [← hhigh i hi (by omega)]
    simpa [opwOf, BitVec.getLsbD_of_ge v i (by omega)] using hmask i hi

theorem EncodedFields.startCycle : EncodedFields.Statement .startCycle := encodedFields_of_mask (by decide)
theorem EncodedFields.armEcho : EncodedFields.Statement .armEcho := encodedFields_of_mask (by decide)
theorem EncodedFields.acquire : EncodedFields.Statement .acquire := encodedFields_of_mask (by decide)
theorem EncodedFields.convertPublish : EncodedFields.Statement .convertPublish := encodedFields_of_mask (by decide)
theorem EncodedFields.publishBad : EncodedFields.Statement .publishBad := encodedFields_of_mask (by decide)
theorem EncodedFields.rdDistance (port : Port) : EncodedFields.Statement (.rdDistance port) := encodedFields_of_mask (by cases port <;> decide)
theorem EncodedFields.rdStatus : EncodedFields.Statement .rdStatus := encodedFields_of_mask (by decide)
theorem EncodedFields.rdCapFirst : EncodedFields.Statement .rdCapFirst := encodedFields_of_mask (by decide)
theorem EncodedFields.rdCapSecond : EncodedFields.Statement .rdCapSecond := encodedFields_of_mask (by decide)
theorem EncodedFields.rdRawDuration : EncodedFields.Statement .rdRawDuration := encodedFields_of_mask (by decide)

end Sys2Proof.Laws
end

