-- ==== Sys2Proof/Machine/Assembler.lean ====
section
/-!
DEFINITION. The assembly syntax of 30_encoding.md rule R83 and the pseudo-operations of rule R84 that expand to one line.
`WAIT_SIGNAL` is a loop of the host and stands with the task in Machine/Task.lean.
-/

namespace Sys2Proof.Machine

/-- The mnemonics as the syntax writes them. -/
def mnemonicName : Opcode → String
  | .evUpdate => "EV_UPDATE"
  | .evCapture => "EV_CAPTURE"
  | .startCycle => "START_CYCLE"
  | .armEcho => "ARM_ECHO"
  | .acquire => "ACQUIRE"
  | .convertPublish => "CONVERT_PUBLISH"
  | .publishBad => "PUBLISH_BAD"
  | .rdDistance => "RD_DISTANCE"
  | .rdStatus => "RD_STATUS"
  | .rdCapFirst => "RD_CAP_FIRST"
  | .rdCapSecond => "RD_CAP_SECOND"
  | .rdRawDuration => "RD_RAW_DURATION"

/-- A port as the syntax writes it. -/
def portName : Port → String
  | .event => "event"
  | .host => "host"
  | .reader => "reader"

/-- One line `[port:] MNEMONIC [operand]`. -/
structure AsmLine where
  port : Option Port
  mnemonic : Opcode
  operand : Option Int
  deriving DecidableEq, Repr

/-- Why a line is an assembly error. The first two are rule R83's; the last two are DEDUCED from the form of a line (log
entry 19). -/
inductive AsmError where
  | operandOutOfRange
  | operandNotAllowed
  | operandMissing
  | notALine
  deriving DecidableEq, Repr

/-- The port of a line: the one written, else `event` for class 0x0 and `host` for classes 0x1 and 0x2. -/
def AsmLine.linePort (l : AsmLine) : Port := l.port.getD (defaultPort l.mnemonic.matchWord)

/-- The operation a line stands for, with the word `(OPC << 24) | ARG`. A port its row does not list is no assembly error:
the decoder refuses the operation (95_test_vectors.md program P6). -/
def AsmLine.assemble (l : AsmLine) : Except AsmError Operation :=
  match l.mnemonic, l.operand with
  | .evCapture, some n =>
    if 0 ≤ n ∧ n ≤ 65535 then .ok ⟨l.linePort, opwOf Opcode.evCapture.code (BitVec.ofInt 16 n)⟩
    else .error .operandOutOfRange
  | .evCapture, none => .error .operandMissing
  | o, none => .ok ⟨l.linePort, opwOf o.code 0⟩
  | _, some _ => .error .operandNotAllowed

/-! ## The text of a line -/

/-- The words of a text, split at spaces and tabs; `current` is the word being read, last character first. -/
def splitWords (current : List Char) : List Char → List (List Char)
  | [] => if current.isEmpty then [] else [current.reverse]
  | c :: rest =>
    if c == ' ' || c == '\t' then
      if current.isEmpty then splitWords [] rest else current.reverse :: splitWords [] rest
    else splitWords (c :: current) rest

/-- The value of a digit in base 16, none for another character. -/
def digitValue (c : Char) : Option Nat :=
  if '0' ≤ c ∧ c ≤ '9' then some (c.toNat - '0'.toNat)
  else if 'a' ≤ c ∧ c ≤ 'f' then some (c.toNat - 'a'.toNat + 10)
  else if 'A' ≤ c ∧ c ≤ 'F' then some (c.toNat - 'A'.toNat + 10)
  else none

/-- The number the digits of a base write, after the digits already read as `acc`. -/
def readDigits (base acc : Nat) : List Char → Option Nat
  | [] => some acc
  | c :: rest =>
    match digitValue c with
    | some d => if d < base then readDigits base (acc * base + d) rest else none
    | none => none

/-- An operand: a decimal or `0x` hexadecimal integer, with a sign where it is negative. -/
def readOperand : List Char → Option Int
  | [] => none
  | '0' :: 'x' :: c :: rest => (readDigits 16 0 (c :: rest)).map Int.ofNat
  | '-' :: c :: rest => (readDigits 10 0 (c :: rest)).map fun n => -(n : Int)
  | c :: rest => (readDigits 10 0 (c :: rest)).map Int.ofNat

/-- The port a word of the form `port:` writes. -/
def readPort (w : List Char) : Option Port :=
  [Port.event, .host, .reader].find? fun p => (portName p).toList ++ [':'] == w

/-- The opcode a mnemonic names. -/
def readMnemonic (w : List Char) : Option Opcode := Opcode.all.find? fun o => (mnemonicName o).toList == w

/-- `MNEMONIC [operand]` with the port read before it. -/
def readRest (port : Option Port) : List (List Char) → Except AsmError AsmLine
  | [m] =>
    match readMnemonic m with
    | some o => .ok ⟨port, o, none⟩
    | none => .error .notALine
  | [m, n] =>
    match readMnemonic m, readOperand n with
    | some o, some k => .ok ⟨port, o, some k⟩
    | _, _ => .error .notALine
  | _ => .error .notALine

/-- A line of text: `;` starts a comment, and a line with no words is no operation. -/
def readLine (text : String) : Except AsmError (Option AsmLine) :=
  match splitWords [] (text.toList.takeWhile (· != ';')) with
  | [] => .ok none
  | w :: rest =>
    match readPort w with
    | some p => (readRest (some p) rest).map some
    | none => (readRest none (w :: rest)).map some

/-! ## Pseudo-operations (rule R84) -/

/-- The pseudo-operations that stand for one operation. -/
inductive Pseudo where
  /-- The source's `getLastDistanceCm()`. -/
  | getDistance
  /-- The source's `Distance = BAD_VALUE` on a timed-out wait. -/
  | timeoutPublish
  deriving DecidableEq, Repr

/-- `GET_DISTANCE` is `reader: RD_DISTANCE`, `TIMEOUT_PUBLISH` is `host: PUBLISH_BAD`. -/
def Pseudo.expand : Pseudo → AsmLine
  | .getDistance => ⟨some .reader, .rdDistance, none⟩
  | .timeoutPublish => ⟨some .host, .publishBad, none⟩

end Sys2Proof.Machine
end

