-- ==== Sys2Proof/Machine/Task.lean ====
section
/-!
DEFINITION. The host of the block: the Measurement Task as an external agent (00_scope.md rule R5) with the protocol, duties
and liberties of 70_reset_and_hazards.md rules R235 to R252, run beside the block together with the event source and the
readers (20_memory.md rule R56, 60_exceptions.md rule R215). It is no part of the block's state. The task's actions on the
peripheral and its sleep, the lines in parentheses of rule R240, are no operations of the block and leave it unchanged.
-/

namespace Sys2Proof.Machine

/-- Where the task stands in the cycle of rule R240. -/
inductive TaskPos where
  /-- Asleep in step 8, or before step 1; `measured` says whether the last cycle's echo wait succeeded. -/
  | sleeping (measured : Bool)
  /-- After START_CYCLE, configuring the trigger pulse (step 2, rule R242). -/
  | triggering
  /-- In the trigger wait (step 3, rule R243). -/
  | awaitingTriggerDone
  /-- After a successful trigger wait, before ARM_ECHO (step 4, rule R244). -/
  | arming
  /-- In the echo wait (step 5, rule R245). -/
  | awaitingEcho
  /-- After a successful echo wait, before CONVERT_PUBLISH (steps 6 and 7, rule R246). -/
  | converting
  /-- After a failed wait, before PUBLISH_BAD. -/
  | publishingBad
  deriving DecidableEq, Repr

/-- The source's task-level states (rule R249). -/
inductive SourceTaskState where
  | idle
  | triggering
  | awaitingTriggerDone
  | awaitingEchoStart
  | awaitingEchoEnd
  | publishing
  deriving DecidableEq, Repr

/-- The map of rule R249; the two echo states are one host wait and differ only in the block's EDGE (90_conflicts.md C5).
The moment before ARM_ECHO is in no row of the table. -/
def TaskPos.sourceState (edge : EdgeState) : TaskPos → Option SourceTaskState
  | .sleeping _ => some .idle
  | .triggering => some .triggering
  | .awaitingTriggerDone => some .awaitingTriggerDone
  | .arming => none
  | .awaitingEcho => match edge with
    | .awaitingRisingEdge => some .awaitingEchoStart
    | .awaitingFallingEdge => some .awaitingEchoEnd
  | .converting => some .publishing
  | .publishingBad => some .publishing

/-- A read the host may issue at any time to observe the block (rule R250, row "observe"). -/
inductive Observation where
  | distance
  | status
  | sample (e : Element)
  deriving DecidableEq, Repr

/-- The operation of an observation. -/
def Observation.instr : Observation → Instr
  | .distance => .rdDistance .host
  | .status => .rdStatus
  | .sample .capFirst => .rdCapFirst
  | .sample .capSecond => .rdCapSecond
  | .sample .rawDuration => .rdRawDuration

/-- Rule R256 is heeded: a sample is read only after a successful echo wait of the current cycle. A read that does not heed it
is a move of the host all the same (rule R250), and takes `⊥` or another cycle's value as it finds it. -/
def Observation.heedsHazard : Observation → TaskPos → Bool
  | .distance, _ => true
  | .status, _ => true
  | .sample _, pos => pos == .converting || pos == .sleeping true

/-- One move of one of the three agents. -/
inductive AgentMove where
  /-- The event source delivers an update event. -/
  | update
  /-- The event source delivers a capture event with any counter value. -/
  | capture (v : Counter)
  /-- A reader reads the distance. -/
  | readerRead
  /-- The host observes the block. -/
  | observe (o : Observation)
  /-- The host issues START_CYCLE, as it may at any time (R250, row "start a cycle"). -/
  | startCycle
  /-- The task goes on with its protocol; `giveUp` is its liberty to end a wait after an ACQUIRE that responds 0 (R251). -/
  | proceed (giveUp : Bool)
  deriving DecidableEq, Repr

/-- The move heeds rule R256; only an observation can fail to. -/
def AgentMove.heedsHazard : AgentMove → TaskPos → Bool
  | .observe o, pos => o.heedsHazard pos
  | .update, _ => true
  | .capture _, _ => true
  | .readerRead, _ => true
  | .startCycle, _ => true
  | .proceed _, _ => true

/-- The task beside the block it drives. -/
structure TaskSystem where
  pos : TaskPos
  block : State
  deriving DecidableEq, Repr

/-- Boot: the platform resets the block first and the task begins last (rules R235 and R236). -/
def TaskSystem.boot : TaskSystem := ⟨.sleeping false, State.reset⟩

/-- The block after an agent's operation; none where the block would not go on. -/
def State.issue (s : State) (i : Instr) : Option State :=
  match perform (encode i) s with
  | .next t => some t
  | _ => none

/-- The word of the last response given. -/
def State.lastResponse (s : State) : Option Word := (s.responses.getLast?).map Response.word

/-- One ACQUIRE of `WAIT_SIGNAL` (30_encoding.md rule R84): the wait succeeds only through a response of 1, and after a
response of 0 the task gives up or stays in the wait (rule R251). -/
def TaskSystem.wait (t : TaskSystem) (giveUp : Bool) (success : TaskPos) : Option TaskSystem :=
  (t.block.issue .acquire).map fun b =>
    if b.lastResponse = some 1 then ⟨success, b⟩
    else if giveUp then ⟨.publishingBad, b⟩
    else ⟨t.pos, b⟩

/-- START_CYCLE from any position: it begins a cycle, and one that was under way is abandoned. -/
def TaskSystem.beginCycle (t : TaskSystem) : Option TaskSystem := (t.block.issue .startCycle).map (⟨.triggering, ·⟩)

/-- The task's next move in the cycle of rule R240. -/
def TaskSystem.proceed (t : TaskSystem) (giveUp : Bool) : Option TaskSystem :=
  match t.pos with
  | .sleeping _ => t.beginCycle
  | .triggering => some ⟨.awaitingTriggerDone, t.block⟩
  | .awaitingTriggerDone => t.wait giveUp .arming
  | .arming => (t.block.issue .armEcho).map (⟨.awaitingEcho, ·⟩)
  | .awaitingEcho => t.wait giveUp .converting
  | .converting => (t.block.issue .convertPublish).map (⟨.sleeping true, ·⟩)
  | .publishingBad => (t.block.issue .publishBad).map (⟨.sleeping false, ·⟩)

/-- One move of the system; none only where the block would not go on. -/
def TaskSystem.act (t : TaskSystem) : AgentMove → Option TaskSystem
  | .update => (t.block.issue .evUpdate).map (⟨t.pos, ·⟩)
  | .capture v => (t.block.issue (.evCapture v)).map (⟨t.pos, ·⟩)
  | .readerRead => (t.block.issue (.rdDistance .reader)).map (⟨t.pos, ·⟩)
  | .observe o => (t.block.issue o.instr).map (⟨t.pos, ·⟩)
  | .startCycle => t.beginCycle
  | .proceed giveUp => t.proceed giveUp

end Sys2Proof.Machine
end

