-- ==== Sys2Proof/Safety.lean ====
section
/-!
DEFINITION. What claims are stated in terms of: good states (10_state.md rule R33), the invariants of rules R39 to R41,
the states reachable from reset, interleavings of the agents' streams (20_memory.md rule R56), which operations have a given
effect, and the invariant of the task beside the block.
-/

namespace Sys2Proof

/-- The operation is EV_CAPTURE. -/
def Instr.isCapture : Instr → Bool
  | .evCapture _ => true
  | .evUpdate | .startCycle | .armEcho | .acquire | .convertPublish | .publishBad | .rdDistance _ | .rdStatus
  | .rdCapFirst | .rdCapSecond | .rdRawDuration => false

/-- The decoder reads `op` as an operation of which `p` holds. -/
def decodesTo (p : Instr → Bool) (op : Operation) : Bool :=
  match decode op with
  | .accepted i => p i
  | .refused _ => false

/-- One of the two operations that write DISTANCE (41_command_operations.md rule R146). -/
def Instr.publishes (i : Instr) : Bool := i == .convertPublish || i == .publishBad

end Sys2Proof

namespace Sys2Proof.Machine

/-- The element, if it holds `⊥`. -/
def State.unwritten (s : State) (e : Element) : Option Element := if s.element e = none then some e else none

/-- A state that may be a good final state carries neither mark (rules R33 and R203). -/
abbrev State.Good (s : State) : Prop := s.faulted = false ∧ s.refused = false

/-- Rules R39 and R40: a falling edge is awaited only after a rising edge was latched, and RAW_DURATION and CAP_SECOND hold
values together. -/
abbrev State.CaptureLaws (s : State) : Prop :=
  (s.edge = .awaitingFallingEdge → s.capFirst ≠ none) ∧ (s.rawDuration = none ↔ s.capSecond = none)

/-- Rule R41: DISTANCE is the sentinel or lies between 0 and the largest converted distance. -/
abbrev State.DistanceLaw (s : State) : Prop :=
  s.distance.toInt = badValue ∨ (0 ≤ s.distance.toInt ∧ s.distance.toInt ≤ s.cfg.dmax)

/-- The marks say whether anything is recorded beside them (rules R33, R202; log entry 7). -/
abbrev State.MarksRecorded (s : State) : Prop :=
  s.faulted = !s.faultLog.isEmpty ∧ s.refused = !s.refusalLog.isEmpty

/-- The invariant every step keeps, over a well-formed configuration (00_scope.md rule R11). -/
abbrev State.Inv (s : State) : Prop :=
  s.cfg.WellFormed ∧ s.CaptureLaws ∧ s.DistanceLaw ∧ s.MarksRecorded

/-- `n` steps, stopping where a step stops. -/
def run : Nat → State → Host.Outcome State Fault Refusal
  | 0, s => .next s
  | n + 1, s =>
    match step s with
    | .next t => run n t
    | .fault r => .fault r
    | .refused r => .refused r

/-- The state after reset in configuration `c` with the operations `ops` to be performed in this order. -/
def State.started (c : Cfg) (ops : List Operation) : State := { State.reset with cfg := c, inbox := ops }

/-- Reachable from reset: after some number of steps over some operations in some well-formed configuration. -/
def State.Reachable (s : State) : Prop :=
  ∃ c ops n, Cfg.WellFormed c ∧ run n (State.started c ops) = .next s

/-- `ops` is an interleaving of the three agents' streams of words that keeps each agent's own issue order (rule R56). -/
abbrev Interleaving (events hosts readers : List Word) (ops : List Operation) : Prop :=
  (ops.filter (·.port == .event)).map Operation.word = events ∧
    (ops.filter (·.port == .host)).map Operation.word = hosts ∧
    (ops.filter (·.port == .reader)).map Operation.word = readers

/-- The element that the operation reads while it holds `⊥`, none where there is no such read: the condition of UNWRITTEN_READ
in 60_exceptions.md rule R202. -/
def State.unwrittenRead (s : State) : Instr → Option Element
  | .evCapture _ =>
    match s.phase, s.edge with
    | .echo, .awaitingFallingEdge => s.unwritten .capFirst
    | .echo, .awaitingRisingEdge => none
    | .trigger, _ => none
  | .convertPublish => s.unwritten .rawDuration
  | .rdCapFirst => s.unwritten .capFirst
  | .rdCapSecond => s.unwritten .capSecond
  | .rdRawDuration => s.unwritten .rawDuration
  | .evUpdate | .startCycle | .armEcho | .acquire | .publishBad | .rdDistance _ | .rdStatus => none

/-- The class of an operation (30_encoding.md rule R74): 0 event, 1 command, 2 read. -/
def opClass (i : Instr) : BitVec 4 := i.opcode.code.extractLsb' 4 4

/-- What the protocol guarantees of the block at each position of the task (70_reset_and_hazards.md rules R237, R243 to
R246, R249). -/
def TaskPos.Guarantee (s : State) : TaskPos → Prop
  | .sleeping measured => measured = true → s.rawDuration ≠ none
  | .triggering => s.sig = true → s.phase = .echo
  | .awaitingTriggerDone => s.sig = true → s.phase = .echo
  | .arming => s.phase = .echo ∧ (s.sig = true → s.rawDuration ≠ none)
  | .awaitingEcho => s.phase = .echo ∧ (s.sig = true → s.rawDuration ≠ none)
  | .converting => s.phase = .echo ∧ s.rawDuration ≠ none
  | .publishingBad => True

/-- What every move keeps, whatever the host observes: no word was refused, the capture laws hold, a measured duration has a
rising edge behind it, and the task's position guarantees what the protocol says. -/
def TaskSystem.Guaranteed (t : TaskSystem) : Prop :=
  t.block.refused = false ∧ t.block.CaptureLaws ∧ (t.block.rawDuration ≠ none → t.block.capFirst ≠ none) ∧
    t.pos.Guarantee t.block

/-- The invariant of the task beside the block: in addition, nothing has faulted, so that the block is in a good state. -/
def TaskSystem.Inv (t : TaskSystem) : Prop := t.Guaranteed ∧ t.block.Good

end Sys2Proof.Machine
end

