-- ==== Sys2Proof/Certificates/Slice0/Obligations.lean ====
section
/-!
DEFINITION. The statements for the provers, from the numbered rules of spec/. That the operation order is the list `inbox`,
that responses, faults and refusals are kept in lists, and that the configuration is a field is the model's form (DESIGN
CHOICE, log entries 3, 5, 6 and 7): the statements use these fields to say what is performed, responded and recorded, and
rest on no value of them.
-/

open Sys2Proof Sys2Proof.Machine

/-! ## Steps, decoding and encoding -/

/-- R56 and R79: a step performs the next operation of the operation order as the decoder reads it; around `exec` the step
only takes the operation off the list of delivered ones (the model's choice, log entry 3). -/
def Obligations.StepPerformsTheDecodedOperation : Prop :=
  ∀ (s : State) (op : Operation) (rest : List Operation) (i : Instr), s.inbox = op :: rest → decode op = .accepted i →
    step s = exec i { s with inbox := rest }

/-- R80: a refused word changes nothing but the mark REFUSED (and whatever is recorded beside it), no step clears the mark,
and the four reasons are all there are. -/
def Obligations.RefusedWordOnlySetsTheMark : Prop :=
  (∀ (s : State) (op : Operation) (rest : List Operation) (r : DecodeRefusal), s.inbox = op :: rest → decode op = .refused r →
    ∃ log, step s = .next { s with inbox := rest, refused := true, refusalLog := log }) ∧
  (∀ s t : State, step s = .next t → s.refused = true → t.refused = true) ∧
  (∀ (op : Operation) (r : DecodeRefusal), decode op = .refused r →
    r = .reservedOpcode op.word ∨ r = .reservedFieldNonzero op.word ∨ r = .argNotZero op.word ∨
      r = .wrongPort op.word op.port)

/-- R100, R129, R159, R200: every operation completes, so every step answers a next state and the block never stops. That a
fault and a refused word are next states too, and that a step with nothing delivered keeps the state, is the model's form
(log entries 1, 2 and 4). -/
def Obligations.EveryStepAnswersANextState : Prop := ∀ s : State, ∃ t, step s = .next t

/-- R79: decoding is total, and its checks are applied in the rule's order. -/
def Obligations.DecodeChecksInOrder : Prop :=
  ∀ (port : Port) (w : Word),
    let opc : BitVec 8 := w.extractLsb' 24 8
    let rsv : BitVec 8 := w.extractLsb' 16 8
    let arg : BitVec 16 := w.extractLsb' 0 16
    let assigned : List (BitVec 8) := [0x01, 0x02, 0x10, 0x11, 0x12, 0x13, 0x14, 0x20, 0x21, 0x22, 0x23, 0x24]
    let ports : List Port := if opc = 0x01 ∨ opc = 0x02 then [.event] else if opc = 0x20 then [.host, .reader] else [.host]
    if opc ∉ assigned then decode ⟨port, w⟩ = .refused (.reservedOpcode w)
    else if rsv ≠ 0x00 then decode ⟨port, w⟩ = .refused (.reservedFieldNonzero w)
    else if opc ≠ 0x02 ∧ arg ≠ 0x0000 then decode ⟨port, w⟩ = .refused (.argNotZero w)
    else if port ∉ ports then decode ⟨port, w⟩ = .refused (.wrongPort w port)
    else ∃ i, decode ⟨port, w⟩ = .accepted i ∧ i.opcode.code = opc ∧ i.port = port ∧ (opc = 0x02 → i = .evCapture arg)

/-- R76: the words the decoder accepts as a mnemonic are those its row's match and mask select, on the row's ports, and no
word matches two rows. -/
def Obligations.AcceptedWordsAreTheTableRows : Prop :=
  let table : List (Opcode × Word × Word × List Port) :=
    [(.evUpdate, 0x01000000, 0xFFFFFFFF, [.event]), (.evCapture, 0x02000000, 0xFFFF0000, [.event]),
      (.startCycle, 0x10000000, 0xFFFFFFFF, [.host]), (.armEcho, 0x11000000, 0xFFFFFFFF, [.host]),
      (.acquire, 0x12000000, 0xFFFFFFFF, [.host]), (.convertPublish, 0x13000000, 0xFFFFFFFF, [.host]),
      (.publishBad, 0x14000000, 0xFFFFFFFF, [.host]), (.rdDistance, 0x20000000, 0xFFFFFFFF, [.host, .reader]),
      (.rdStatus, 0x21000000, 0xFFFFFFFF, [.host]), (.rdCapFirst, 0x22000000, 0xFFFFFFFF, [.host]),
      (.rdCapSecond, 0x23000000, 0xFFFFFFFF, [.host]), (.rdRawDuration, 0x24000000, 0xFFFFFFFF, [.host])]
  (∀ (port : Port) (w : Word) (o : Opcode),
    (∃ i, decode ⟨port, w⟩ = .accepted i ∧ i.opcode = o) ↔
      ∃ row ∈ table, row.1 = o ∧ w &&& row.2.2.1 = row.2.1 ∧ port ∈ row.2.2.2) ∧
  (∀ row ∈ table, ∀ row' ∈ table, ∀ w : Word, w &&& row.2.2.1 = row.2.1 → w &&& row'.2.2.1 = row'.2.1 → row = row')

/-- R74 to R79: decoding the encoding of any well-formed operation gives it back, with every operand. -/
def Obligations.DecodeOfEncode : Prop := ∀ i : Instr, i.wellFormed = true → decode (encode i) = .accepted i

/-- R74 to R79: each accepted operation is the encoding of the one well-formed instruction it decodes to, so every word has
one meaning. -/
def Obligations.EncodeOfDecode : Prop :=
  ∀ (op : Operation) (i : Instr), decode op = .accepted i → i.wellFormed = true ∧ encode i = op

/-- R76, R79: words written out from the opcode map, one or two of each class, decode to the operations they stand for. -/
def Obligations.SampleWordsDecode : Prop :=
  decode ⟨.event, 0b00000001000000000000000000000000⟩ = .accepted .evUpdate ∧
  decode ⟨.event, 0b00000010000000000000000101001100⟩ = .accepted (.evCapture 332) ∧
  decode ⟨.host, 0b00010000000000000000000000000000⟩ = .accepted .startCycle ∧
  decode ⟨.host, 0b00010011000000000000000000000000⟩ = .accepted .convertPublish ∧
  decode ⟨.reader, 0b00100000000000000000000000000000⟩ = .accepted (.rdDistance .reader) ∧
  decode ⟨.host, 0b00100100000000000000000000000000⟩ = .accepted .rdRawDuration

/-- R78: an operation is accepted only on the ports of its row, EVENT accepts class 0x0 only, HOST classes 0x1 and 0x2, and
READER only RD_DISTANCE. -/
def Obligations.PortsAcceptOnlyTheirClasses : Prop :=
  (∀ (op : Operation) (i : Instr), decode op = .accepted i →
    op.port ∈ i.opcode.ports ∧ (op.port = .event → opClass i = 0x0) ∧
      (op.port = .host → opClass i = 0x1 ∨ opClass i = 0x2) ∧ (op.port = .reader → i = .rdDistance .reader)) ∧
  (∀ (p : Port) (i : Instr), (∃ j, decode ⟨p, (encode i).word⟩ = .accepted j) ↔
    match p with
    | .event => opClass i = 0x0
    | .host => opClass i = 0x1 ∨ opClass i = 0x2
    | .reader => i.opcode = .rdDistance)

/-- R51 and R52: a word crosses a byte link least significant byte first, and fewer than 32 bits deliver no operation (the
byte link itself is the model's choice of a narrow link, log entry 20). -/
def Obligations.LinkCarriesWordsLittleEndian : Prop :=
  (∀ b0 b1 b2 b3 : Byte, ∀ rest : List Byte, ∃ w, opwOfBytes (b0 :: b1 :: b2 :: b3 :: rest) = some (w, rest) ∧
    w.toNat = b0.toNat + 2 ^ 8 * b1.toNat + 2 ^ 16 * b2.toNat + 2 ^ 24 * b3.toNat) ∧
  (∀ (w : Word) (rest : List Byte), opwOfBytes (opwToBytes w ++ rest) = some (w, rest)) ∧
  (∀ (port : Port) (bytes : List Byte), bytes.length < 4 → decodeBytes port bytes = none)

/-- R83: EV_CAPTURE with an operand in `[0, 65535]`, and every other mnemonic without one, assembles to the word
`(OPC << 24) | ARG` on the port written or the class's default, whether its row lists that port or not. The decoder reads what
a line assembles to as its mnemonic and operand, or refuses it for its port, as program P6 of 95_test_vectors.md has it. An
operand outside `[0, 65535]` or on another mnemonic is an error. -/
def Obligations.AssembledLinesDecodeToTheirMnemonic : Prop :=
  (∀ (l : AsmLine) (n : Nat), l.mnemonic = .evCapture → l.operand = some (n : Int) → n ≤ 65535 →
    l.assemble = .ok ⟨l.linePort, (0x02 : Word) <<< 24 ||| BitVec.ofNat 32 n⟩) ∧
  (∀ l : AsmLine, l.mnemonic ≠ .evCapture → l.operand = none →
    l.assemble = .ok ⟨l.linePort, l.mnemonic.code.setWidth 32 <<< 24⟩) ∧
  (∀ (l : AsmLine) (op : Operation), l.assemble = .ok op →
    op.port = l.linePort ∧
    (if l.linePort ∈ l.mnemonic.ports then ∃ i, decode op = .accepted i ∧ i.opcode = l.mnemonic ∧ i.arg.toNat = l.operand.getD 0
      else decode op = .refused (.wrongPort op.word l.linePort))) ∧
  (∀ l : AsmLine, (l.port = none → l.linePort = if l.mnemonic.code.toNat < 0x10 then .event else .host) ∧
    (∀ p, l.port = some p → l.linePort = p)) ∧
  (∀ (l : AsmLine) (n : Int), l.operand = some n → (n < 0 ∨ 65535 < n ∨ l.mnemonic ≠ .evCapture) →
    ∃ e, l.assemble = .error e)

/-! ## Arithmetic -/

/-- R102: the range and branch laws of `duration`, with the pair (65535, 0) as WRAP_UNDERFLOW_MODE says. -/
def Obligations.DurationRangeAndBranchLaws : Prop :=
  ∀ (c : Cfg) (first second : Counter), c.WellFormed →
    let d := (duration c first second).toNat
    (second.toNat > first.toNat →
      d = second.toNat - first.toNat - 1 ∧ d ≤ 65534 ∧ (d = 0 ↔ second.toNat = first.toNat + 1) ∧
        (d = 65534 ↔ first = 0 ∧ second = 65535)) ∧
    (second = first → d = 65534) ∧
    (second.toNat < first.toNat → ¬(first = 65535 ∧ second = 0) →
      (d : Int) = 65534 - first.toNat + second.toNat ∧ d ≤ 65533) ∧
    (first = 65535 ∧ second = 0 →
      d = match c.wrapUnderflowMode with
        | .mod16 => 0xFFFF
        | .zero => 0) ∧
    d ≤ counterMax

/-- R103: against the true elapsed count modulo 65536 the non-wrap branch gives one tick less and the wraparound branch two
ticks less (modulo 65536; the pair (65535, 0) only under MOD16). -/
def Obligations.DurationAgainstTheTrueCount : Prop :=
  ∀ (c : Cfg) (first second : Counter), c.WellFormed →
    let true_ticks : Counter := second - first
    (second.toNat > first.toNat → duration c first second = true_ticks - 1) ∧
    (second.toNat ≤ first.toNat → ¬(first = 65535 ∧ second = 0 ∧ c.wrapUnderflowMode = .zero) →
      duration c first second = true_ticks - 2)

/-- R141: the conversion is the floor of the exact quotient, lies in `[0, DMAX]`, and is `floor_div(5 * raw, 116)` with
DMAX = 2824 under the defaults. -/
def Obligations.ConversionIsTheExactFloor : Prop :=
  (∀ (c : Cfg) (raw : Counter), c.WellFormed →
    convert c raw * (c.tickDen * c.usPerCm) ≤ raw.toNat * c.tickNum ∧
    raw.toNat * c.tickNum < (convert c raw + 1) * (c.tickDen * c.usPerCm) ∧
    0 ≤ convert c raw ∧ convert c raw ≤ c.dmax ∧ c.dmax ≤ 2 ^ 31 - 1) ∧
  (∀ c : Cfg, c.dmax = 65535 * c.tickNum / (c.tickDen * c.usPerCm)) ∧
  (∀ raw : Counter, convert Cfg.default raw = (5 * raw.toNat / 116 : Nat)) ∧ Cfg.default.dmax = 2824

/-- R11 and R13: under a well-formed configuration every converted distance fits DISTANCE, so the pattern published reads
back as the number converted. -/
def Obligations.PublishedPatternReadsBack : Prop :=
  ∀ (c : Cfg) (raw : Counter), c.WellFormed → (encS32 (convert c raw)).toInt = convert c raw

/-- R11: the default configuration with the host's default timeout is well formed. -/
def Obligations.DefaultConfigurationIsWellFormed : Prop :=
  Cfg.default.WellFormedWith {} ∧ counterMax * Cfg.default.tickNum = 327675 ∧ 38 * 1000 * Cfg.default.tickDen = 76000

/-! ## Event operations -/

/-- R109: the complete transition table. Each row gives the whole next state, so everything the row does not name is
unchanged; the last row holds where CAP_FIRST holds a value. -/
def Obligations.EventTransitionTable : Prop :=
  ∀ (s : State) (v : Counter),
    (s.phase = .trigger →
      exec .evUpdate s = .next { s with phase := .echo, sig := true, out := s.out ++ [.clrUpdateFlag] }) ∧
    (s.phase = .echo → exec .evUpdate s = .next { s with out := s.out ++ [.clrUpdateFlag] }) ∧
    (s.phase = .trigger → exec (.evCapture v) s = .next { s with out := s.out ++ [.clrCaptureFlag] }) ∧
    (s.phase = .echo → s.edge = .awaitingRisingEdge →
      exec (.evCapture v) s = .next { s with
        edge := .awaitingFallingEdge, capFirst := some v, capPol := .falling, out := s.out ++ [.clrCaptureFlag] }) ∧
    (∀ first, s.phase = .echo → s.edge = .awaitingFallingEdge → s.capFirst = some first →
      exec (.evCapture v) s = .next { s with
        capSecond := some v, rawDuration := some (duration s.cfg first v), sig := true,
        out := s.out ++ [.clrCaptureFlag] })

/-- R111: an event operation changes EDGE only in Echo, from awaiting the rising edge to awaiting the falling edge, and only
EV_CAPTURE does. -/
def Obligations.EventsChangeEdgeOnlyInEcho : Prop :=
  ∀ (i : Instr) (s t : State), opClass i = 0x0 → exec i s = .next t → t.edge ≠ s.edge →
    s.phase = .echo ∧ s.edge = .awaitingRisingEdge ∧ t.edge = .awaitingFallingEdge ∧ ∃ v, i = .evCapture v

/-- R27 and R110: a step raises the signal only by EV_UPDATE in Trigger or by EV_CAPTURE's falling branch. -/
def Obligations.SignalIsRaisedOnlyByTheTwoBranches : Prop :=
  ∀ s t : State, step s = .next t → s.sig = false → t.sig = true →
    ∃ op rest, s.inbox = op :: rest ∧
      ((decode op = .accepted .evUpdate ∧ s.phase = .trigger) ∨
        (∃ v, decode op = .accepted (.evCapture v) ∧ s.phase = .echo ∧ s.edge = .awaitingFallingEdge ∧ t.capSecond = some v))

/-- R31, R202, R203: a read of an element that holds `⊥` ends the operation in UNWRITTEN_READ: nothing is written, emitted
or responded, and the mark FAULTED is set beside the record of the element. That this is a next state, from which later
operations are performed, is the model's form after program P6 of 95_test_vectors.md (log entries 1 and 7). -/
def Obligations.UnwrittenReadTakesTheFault : Prop :=
  ∀ s : State,
    let faultedOn (e : Element) : State := { s with faulted := true, faultLog := s.faultLog ++ [.unwrittenRead e] }
    (s.capFirst = none → exec .rdCapFirst s = .next (faultedOn .capFirst)) ∧
    (s.capSecond = none → exec .rdCapSecond s = .next (faultedOn .capSecond)) ∧
    (s.rawDuration = none → exec .rdRawDuration s = .next (faultedOn .rawDuration)) ∧
    (s.rawDuration = none → exec .convertPublish s = .next (faultedOn .rawDuration)) ∧
    (∀ v, s.phase = .echo → s.edge = .awaitingFallingEdge → s.capFirst = none →
      exec (.evCapture v) s = .next (faultedOn .capFirst))

/-- R202 and R203: an operation faults exactly where it reads an element that holds `⊥`, the element is recorded, and no
other operation of an agent touches a mark; a refused word records its refusal. The two records are the model's choice (log
entry 7). -/
def Obligations.FaultsAndRefusalsRecordTheirInformation : Prop :=
  (∀ (i : Instr) (s t : State), i.wellFormed = true → exec i s = .next t →
    match s.unwrittenRead i with
    | some e => s.element e = none ∧ t = { s with faulted := true, faultLog := s.faultLog ++ [.unwrittenRead e] }
    | none => t.faulted = s.faulted ∧ t.faultLog = s.faultLog ∧ t.refused = s.refused ∧ t.refusalLog = s.refusalLog) ∧
  (∀ (s t : State) (op : Operation) (rest : List Operation) (r : DecodeRefusal), s.inbox = op :: rest →
    decode op = .refused r → step s = .next t → t.refusalLog = s.refusalLog ++ [r] ∧ t.faultLog = s.faultLog)

/-! ## Command operations -/

/-- R130: START_CYCLE from any state. -/
def Obligations.StartCycleResetsPhaseEdgeAndSignal : Prop :=
  ∀ s : State, exec .startCycle s = .next { s with
    phase := .trigger, edge := .awaitingRisingEdge, sig := false, responses := s.responses ++ [⟨.host, 0x00000000⟩] }

/-- R133: ARM_ECHO from any state; in Trigger no capture is taken after it, and in Echo the next capture takes the rising
branch again. -/
def Obligations.ArmEchoRestartsTheEdgePair : Prop :=
  ∀ s : State, ∃ t, t = { s with
      edge := .awaitingRisingEdge, capPol := .rising, out := s.out ++ [.clrCaptureFlag],
      responses := s.responses ++ [⟨.host, 0x00000000⟩] } ∧
    exec .armEcho s = .next t ∧
    (s.phase = .trigger → ∀ v, exec (.evCapture v) t = .next { t with out := t.out ++ [.clrCaptureFlag] }) ∧
    (s.phase = .echo → ∀ v, exec (.evCapture v) t = .next { t with
      capFirst := some v, capPol := .falling, edge := .awaitingFallingEdge, out := t.out ++ [.clrCaptureFlag] })

/-- R135: ACQUIRE is the test and clear of the signal; a second ACQUIRE after one signal responds 0, and two signals set
before one ACQUIRE are one signal, whether EV_UPDATE in Trigger or EV_CAPTURE's falling branch set the second. -/
def Obligations.AcquireTestsAndClearsTheSignal : Prop :=
  ∀ s : State,
    (s.sig = true → ∃ t, t = { s with sig := false, responses := s.responses ++ [⟨.host, 0x00000001⟩] } ∧
      exec .acquire s = .next t ∧
      exec .acquire t = .next { t with responses := t.responses ++ [⟨.host, 0x00000000⟩] }) ∧
    (s.sig = false → exec .acquire s = .next { s with responses := s.responses ++ [⟨.host, 0x00000000⟩] }) ∧
    (∀ (i : Instr) (t : State), s.sig = true → exec i s = .next t →
      (i = .evUpdate ∧ s.phase = .trigger ∨
        (∃ v, i = .evCapture v) ∧ s.phase = .echo ∧ s.edge = .awaitingFallingEdge ∧ s.capFirst ≠ none) →
      ∃ u, exec .acquire t = .next u ∧ u.responses = s.responses ++ [⟨.host, 0x00000001⟩] ∧
        exec .acquire u = .next { u with responses := u.responses ++ [⟨.host, 0x00000000⟩] })

/-- R140: CONVERT_PUBLISH writes DISTANCE with the converted duration, whatever cycle it is of, and responds 0, with the
rule's corner cases; issued again it writes the same value again; where RAW_DURATION holds `⊥` it faults and nothing is
written, emitted or responded. -/
def Obligations.ConvertPublishPublishesTheConversion : Prop :=
  (∀ (s : State) (raw : Counter), s.cfg.WellFormed → s.rawDuration = some raw →
    ∃ (d : Word) (t : State), d = BitVec.ofInt 32 (convert s.cfg raw) ∧
      t = { s with distance := d, responses := s.responses ++ [⟨.host, 0x00000000⟩] } ∧
      exec .convertPublish s = .next t ∧
      exec .convertPublish t = .next { t with responses := t.responses ++ [⟨.host, 0x00000000⟩] } ∧
      0 ≤ d.toInt ∧ d.toInt ≠ badValue ∧ (raw = 0 → d = 0) ∧ (raw = 0xFFFF → d.toInt = s.cfg.dmax) ∧
      (s.cfg = Cfg.default → (raw.toNat ≤ 23 → d = 0) ∧ (raw = 24 → d = 1) ∧ (raw = 232 → d = 10) ∧
        (raw = 0xFFFF → d = 2824))) ∧
  (∀ s : State, s.rawDuration = none → ∃ log, exec .convertPublish s = .next { s with faulted := true, faultLog := log })

/-- R145: PUBLISH_BAD writes the sentinel in any state and touches nothing else. -/
def Obligations.PublishBadPublishesTheSentinel : Prop :=
  ∀ s : State, exec .publishBad s = .next { s with
    distance := 0xFFFFFFFF, responses := s.responses ++ [⟨.host, 0x00000000⟩] }

/-! ## Read operations -/

/-- R160: RD_DISTANCE on HOST and on READER responds DISTANCE on its port, without a fault; before any publication that is
0xFFFFFFFF. -/
def Obligations.RdDistanceRespondsTheDistance : Prop :=
  (∀ (s : State) (port : Port), port = .host ∨ port = .reader →
    exec (.rdDistance port) s = .next { s with responses := s.responses ++ [⟨port, s.distance⟩] }) ∧
  (∀ (c : Cfg) (ops : List Operation) (n : Nat) (t : State), (∀ op ∈ ops, decodesTo Instr.publishes op = false) →
    run n (State.started c ops) = .next t → t.distance = 0xFFFFFFFF)

/-- The model's choice (log entry 11), after R78 and R80: a term that carries the port EVENT, which no word decodes to, is
the refusal WRONG_PORT of the word 0x20000000. -/
def Obligations.RdDistanceOnEventIsRefused : Prop :=
  ∀ s : State, exec (.rdDistance .event) s = .next { s with
    refused := true, refusalLog := s.refusalLog ++ [.wrongPort 0x20000000 .event] }

/-- R161: RD_STATUS responds the status view and clears nothing; right after reset the response is zero. -/
def Obligations.RdStatusRespondsTheView : Prop :=
  (∀ s : State, ∃ w : Word, exec .rdStatus s = .next { s with responses := s.responses ++ [⟨.host, w⟩] } ∧
    (w.getLsbD 0 = true ↔ s.phase = .echo) ∧ (w.getLsbD 1 = true ↔ s.edge = .awaitingFallingEdge) ∧
    w.getLsbD 2 = s.sig ∧ (w.getLsbD 3 = true ↔ s.capPol = .falling) ∧ ∀ k, 4 ≤ k → w.getLsbD k = false) ∧
  exec .rdStatus State.reset = .next { State.reset with responses := [⟨.host, 0x00000000⟩] }

/-- R162, R163, R164: the sample reads respond their element zero-extended and change nothing else. -/
def Obligations.SampleReadsRespondZeroExtended : Prop :=
  ∀ (s : State) (v : Counter),
    let t : State := { s with responses := s.responses ++ [⟨.host, BitVec.ofNat 32 v.toNat⟩] }
    (s.capFirst = some v → exec .rdCapFirst s = .next t) ∧ (s.capSecond = some v → exec .rdCapSecond s = .next t) ∧
      (s.rawDuration = some v → exec .rdRawDuration s = .next t)

/-- R159: a read operation writes no element and emits nothing: it responds one word, and only where the element it reads
itself holds `⊥` is the fault recorded instead. -/
def Obligations.ReadsWriteNothing : Prop :=
  ∀ (i : Instr) (s t : State), i.wellFormed = true → opClass i = 0x2 → exec i s = .next t →
    (s.unwrittenRead i = none ∧ ∃ w, t = { s with responses := s.responses ++ [⟨i.port, w⟩] }) ∨
      (∃ e, s.unwrittenRead i = some e ∧ s.element e = none ∧
        t = { s with faulted := true, faultLog := s.faultLog ++ [.unwrittenRead e] })

/-- R166: the response of RD_DISTANCE depends on DISTANCE alone. -/
def Obligations.RdDistanceDependsOnTheDistanceAlone : Prop :=
  ∀ (s s' : State) (port : Port), port = .host ∨ port = .reader → s.distance = s'.distance →
    ∃ (w : Word) (t t' : State), exec (.rdDistance port) s = .next t ∧ exec (.rdDistance port) s' = .next t' ∧
      t.responses = s.responses ++ [⟨port, w⟩] ∧ t'.responses = s'.responses ++ [⟨port, w⟩]

/-! ## Rules of the whole machine -/

/-- R230: the state after reset, element by element, with OUT and the marks; no operation performs it, for none returns a
written element to `⊥`. -/
def Obligations.ResetValues : Prop :=
  State.reset.phase = .trigger ∧ State.reset.edge = .awaitingRisingEdge ∧ State.reset.sig = false ∧
    State.reset.capPol = .rising ∧ State.reset.distance.toInt = -1 ∧ State.reset.capFirst = none ∧
    State.reset.capSecond = none ∧ State.reset.rawDuration = none ∧ State.reset.out = [] ∧
    State.reset.faulted = false ∧ State.reset.refused = false ∧
    ∀ (s t : State) (e : Element), s.element e ≠ none → step s = .next t → t.element e ≠ State.reset.element e

/-- R131: only START_CYCLE returns PHASE from Echo to Trigger. -/
def Obligations.OnlyStartCycleReturnsToTrigger : Prop :=
  (∀ s t : State, step s = .next t → s.phase = .echo → t.phase = .trigger →
    ∃ op rest, s.inbox = op :: rest ∧ decode op = .accepted .startCycle) ∧
  (∀ s t : State, s.phase = .echo → exec .startCycle s = .next t → t.phase = .trigger)

/-- R38: what the event side, the host side and the read operations may write, and to which values. -/
def Obligations.WriteCapabilitiesOfEachSide : Prop :=
  ∀ (i : Instr) (s t : State), i.wellFormed = true → exec i s = .next t →
    (opClass i = 0x0 → t.distance = s.distance ∧ (t.phase = s.phase ∨ t.phase = .echo) ∧
      (t.edge = s.edge ∨ t.edge = .awaitingFallingEdge) ∧ (t.sig = s.sig ∨ t.sig = true) ∧
      (t.capPol = s.capPol ∨ t.capPol = .falling)) ∧
    (opClass i = 0x1 → t.capFirst = s.capFirst ∧ t.capSecond = s.capSecond ∧ t.rawDuration = s.rawDuration ∧
      (t.phase = s.phase ∨ t.phase = .trigger) ∧ (t.edge = s.edge ∨ t.edge = .awaitingRisingEdge) ∧
      (t.sig = s.sig ∨ t.sig = false) ∧ (t.capPol = s.capPol ∨ t.capPol = .rising)) ∧
    (opClass i = 0x2 → t.phase = s.phase ∧ t.edge = s.edge ∧ t.capFirst = s.capFirst ∧ t.capSecond = s.capSecond ∧
      t.rawDuration = s.rawDuration ∧ t.sig = s.sig ∧ t.capPol = s.capPol ∧ t.distance = s.distance)

/-- R146: DISTANCE is written by CONVERT_PUBLISH, only with values in `[0, DMAX]`, and by PUBLISH_BAD, only with -1. -/
def Obligations.OnlyTheTwoPublicationsWriteDistance : Prop :=
  (∀ s t : State, step s = .next t → t.distance ≠ s.distance →
    ∃ op rest, s.inbox = op :: rest ∧ (decode op = .accepted .convertPublish ∨ decode op = .accepted .publishBad)) ∧
  (∀ s t : State, s.cfg.WellFormed → s.rawDuration ≠ none → exec .convertPublish s = .next t →
    0 ≤ t.distance.toInt ∧ t.distance.toInt ≤ s.cfg.dmax) ∧
  (∀ s t : State, exec .publishBad s = .next t → t.distance.toInt = -1)

/-- R72, R100, R129, R159: what each operation emits: its own flag clear for an event, whatever branch it takes, unless it
faults; one capture flag clear for ARM_ECHO; nothing for any other operation. -/
def Obligations.OutputsOfEveryOperation : Prop :=
  ∀ (i : Instr) (s t : State), exec i s = .next t →
    if i = .evUpdate then t.out = s.out ++ [.clrUpdateFlag]
    else if i.isCapture = true then
      t.out = if s.phase = .echo ∧ s.edge = .awaitingFallingEdge ∧ s.capFirst = none then s.out
        else s.out ++ [.clrCaptureFlag]
    else if i = .armEcho then t.out = s.out ++ [.clrCaptureFlag]
    else t.out = s.out

/-- R73: no response on EVENT; exactly one on HOST and READER for an accepted operation, zero for every command but ACQUIRE,
unless it faults on an unwritten element; none for a fault and none for a refused word. -/
def Obligations.OneResponsePerAcceptedOperation : Prop :=
  ∀ (s t : State) (op : Operation) (rest : List Operation), s.inbox = op :: rest → step s = .next t →
    (op.port = .event → t.responses = s.responses) ∧
    (∀ i, decode op = .accepted i → op.port ≠ .event → s.unwrittenRead i = none →
      ∃ w, t.responses = s.responses ++ [⟨op.port, w⟩] ∧ (opClass i = 0x1 → i ≠ .acquire → w = 0x00000000)) ∧
    (∀ i, decode op = .accepted i → s.unwrittenRead i ≠ none → t.faulted = true ∧ t.responses = s.responses) ∧
    (∀ r, decode op = .refused r → t.responses = s.responses)

/-- R31, R33, R203: no step clears a mark or returns an element to `⊥`, and the records kept beside the marks (the model's
choice, log entry 7) only grow. -/
def Obligations.MarksAndWrittenElementsLast : Prop :=
  ∀ s t : State, step s = .next t →
    (s.faulted = true → t.faulted = true) ∧ (s.refused = true → t.refused = true) ∧
    s.faultLog <+: t.faultLog ∧ s.refusalLog <+: t.refusalLog ∧ ∀ e, s.element e ≠ none → t.element e ≠ none

/-- R32: no operation writes the configuration, and it is fixed for a whole run. -/
def Obligations.ConfigurationIsNeverWritten : Prop :=
  (∀ (i : Instr) (s t : State), exec i s = .next t → t.cfg = s.cfg) ∧
  (∀ (n : Nat) (s t : State), run n s = .next t → t.cfg = s.cfg)

/-- R56: steps take the delivered operations in the operation order and add none, so what is left of an interleaving of the
agents' streams is an interleaving of what is left of each (the list is the model's choice, log entry 3). -/
def Obligations.StepsFollowTheOperationOrder : Prop :=
  ∀ (n : Nat) (s t : State), run n s = .next t →
    t.inbox = s.inbox.drop n ∧
    ∀ events hosts readers, Interleaving events hosts readers s.inbox →
      ∃ events' hosts' readers', Interleaving events' hosts' readers' t.inbox ∧ events' <:+ events ∧ hosts' <:+ hosts ∧
        readers' <:+ readers

/-- R39, R40, R41 as an invariant of every step, over a well-formed configuration (R11), with the records of log entry 7
empty exactly where the marks are clear. -/
def Obligations.StepKeepsTheInvariant : Prop := ∀ s t : State, s.Inv → step s = .next t → t.Inv

/-- The state after reset meets the invariant; its configuration is the default by the model's choice (log entry 5). -/
def Obligations.ResetMeetsTheInvariant : Prop := State.reset.Inv

/-- R39, R40, R41: the laws hold in every state reachable from reset under a well-formed configuration, whatever operations
the agents deliver, EV_CAPTURE faults in none of them, and the bound is 2824 in the default configuration. -/
def Obligations.ReachableStatesObeyTheLaws : Prop :=
  (∀ s : State, s.Reachable →
    (s.edge = .awaitingFallingEdge → s.capFirst ≠ none) ∧
    (∀ v t, exec (.evCapture v) s = .next t → t.faulted = s.faulted) ∧
    (s.rawDuration = none ↔ s.capSecond = none) ∧
    (s.distance.toInt = -1 ∨
      (0 ≤ s.distance.toInt ∧ s.distance.toInt ≤ (counterMax * s.cfg.tickNum / (s.cfg.tickDen * s.cfg.usPerCm) : Nat)))) ∧
  counterMax * Cfg.default.tickNum / (Cfg.default.tickDen * Cfg.default.usPerCm) = 2824

/-- R62 and R165: with no publication between them, two RD_DISTANCE operations respond the same word, whatever other
operations of any agent, accepted or refused, come between. -/
def Obligations.DistanceHoldsUntilTheNextPublication : Prop :=
  ∀ (s : State) (p q : Port) (between rest : List Operation), (p = .host ∨ p = .reader) → (q = .host ∨ q = .reader) →
    s.inbox = encode (.rdDistance p) :: (between ++ encode (.rdDistance q) :: rest) →
    (∀ op ∈ between, decodesTo Instr.publishes op = false) →
    ∃ (t : State) (others : List Response), run (between.length + 2) s = .next t ∧
      t.distance = s.distance ∧ t.inbox = rest ∧
      t.responses = s.responses ++ [⟨p, s.distance⟩] ++ others ++ [⟨q, s.distance⟩]

/-- R57, R107, R140: once EV_CAPTURE's falling branch has latched `v`, a later CONVERT_PUBLISH publishes the conversion of
that branch's duration, whatever operations but another EV_CAPTURE come between. -/
def Obligations.ConvertPublishSeesTheLatestFallingEdge : Prop :=
  ∀ (s : State) (first v : Counter) (between : List Operation),
    s.phase = .echo → s.edge = .awaitingFallingEdge → s.capFirst = some first →
    s.inbox = encode (.evCapture v) :: (between ++ [encode .convertPublish]) →
    (∀ op ∈ between, decodesTo Instr.isCapture op = false) →
    ∃ t, run (between.length + 2) s = .next t ∧
      t.distance = encS32 (convert s.cfg (duration s.cfg first v)) ∧ t.capSecond = some v ∧
      t.rawDuration = some (duration s.cfg first v)

/-- R108, R130, R258: after START_CYCLE, as long as no EV_UPDATE is performed, no operation, in particular no late or
spurious capture, raises a signal, moves the phase or the edge, or touches the capture registers. -/
def Obligations.StartCycleIsolatesTheCycle : Prop :=
  ∀ (s : State) (after : List Operation), s.inbox = encode .startCycle :: after →
    (∀ op ∈ after, decodesTo (· == .evUpdate) op = false) →
    ∃ t, run (after.length + 1) s = .next t ∧ t.phase = .trigger ∧ t.edge = .awaitingRisingEdge ∧
      t.sig = false ∧ t.capFirst = s.capFirst ∧ t.capSecond = s.capSecond ∧ t.rawDuration = s.rawDuration

/-! ## The Measurement Task beside the block

Its positions and moves are the model's form of the protocol (DESIGN CHOICE, log entry 17), and its statements rest on the
host never making the moves of 93_implementation_defined.md U7. -/

/-- R237, R243 to R246, R249, R256: whatever the event source and the readers do and whatever the host observes, a move of the
system refuses nothing and each position of the task goes on guaranteeing what the protocol says of the block; a move that
heeds R256 faults nothing, and any other faults only by reading a sample that holds `⊥` (log entry 17). -/
def Obligations.TaskKeepsItsInvariant : Prop :=
  ∀ (t t' : TaskSystem) (m : AgentMove), t.act m = some t' →
    (t.Guaranteed → t'.Guaranteed) ∧
    (t.Inv → m.heedsHazard t.pos = true → t'.Inv) ∧
    (t.Guaranteed → t'.block.faulted = t.block.faulted ∨
      ∃ e, m = .observe (.sample e) ∧ m.heedsHazard t.pos = false ∧ t.block.element e = none)

/-- R235, R236: the system at boot meets the task's invariant (log entry 17). -/
def Obligations.BootMeetsTheTaskInvariant : Prop := TaskSystem.boot.Inv

/-- R243, R245, R251: a wait of the task ends in success exactly when a signal is pending, and is given up only after an
ACQUIRE that responds 0 (log entry 17). -/
def Obligations.WaitSucceedsExactlyOnASignal : Prop :=
  ∀ (t : TaskSystem) (giveUp : Bool), t.pos = .awaitingTriggerDone ∨ t.pos = .awaitingEcho →
    ∃ t', t.act (.proceed giveUp) = some t' ∧ t'.block.sig = false ∧
      t'.pos = if t.block.sig = true then (if t.pos = .awaitingEcho then .converting else .arming)
        else if giveUp = true then .publishingBad else t.pos

/-- R237, R246: after a successful echo wait the task's CONVERT_PUBLISH does not fault: it publishes the conversion of the
duration held and the task sleeps (log entry 17). -/
def Obligations.TaskConversionNeverFaults : Prop :=
  ∀ (t : TaskSystem) (giveUp : Bool), t.Guaranteed → t.pos = .converting →
    ∃ raw t', t.block.rawDuration = some raw ∧ t.act (.proceed giveUp) = some t' ∧ t'.pos = .sleeping true ∧
      t'.block.faulted = t.block.faulted ∧ t'.block.distance = encS32 (convert t.block.cfg raw)

/-- R248: a cycle that no START_CYCLE of R250's liberty abandons writes DISTANCE exactly once, at its end. DISTANCE changes only
as the publication of the task that stood at CONVERT_PUBLISH or PUBLISH_BAD, after its last wait, and sleeps after it; the task
comes to sleep only by such a publication, which does write DISTANCE; from sleep it goes on only to a new cycle, and from a
publication only to sleep or, abandoning it, to a new cycle; a publication is come to only from a wait; and a cycle begins only
from sleep or where START_CYCLE abandons the one under way (the positions are the model's form, log entry 17). -/
def Obligations.TaskPublishesOnceAtTheEndOfACycle : Prop :=
  ∀ (t t' : TaskSystem) (m : AgentMove), t.act m = some t' →
    (t'.block.distance ≠ t.block.distance → ∃ giveUp, m = .proceed giveUp ∧
      ((t.pos = .converting ∧ t'.pos = .sleeping true) ∨ (t.pos = .publishingBad ∧ t'.pos = .sleeping false))) ∧
    (∀ measured, t'.pos = .sleeping measured → t.pos ≠ .sleeping measured →
      (∃ giveUp, m = .proceed giveUp) ∧ t.pos = if measured = true then .converting else .publishingBad) ∧
    (t.pos = .publishingBad → (∃ giveUp, m = .proceed giveUp) → t'.block.distance.toInt = badValue) ∧
    (t.Guaranteed → t.pos = .converting → (∃ giveUp, m = .proceed giveUp) →
      ∃ raw, t.block.rawDuration = some raw ∧ t'.block.distance = encS32 (convert t.block.cfg raw)) ∧
    (t'.pos = .triggering → t.pos ≠ .triggering →
      m = .startCycle ∨ ∃ measured giveUp, t.pos = .sleeping measured ∧ m = .proceed giveUp) ∧
    (∀ measured, t.pos = .sleeping measured → t'.pos = t.pos ∨ t'.pos = .triggering) ∧
    (t.pos = .converting → t'.pos = t.pos ∨ t'.pos = .sleeping true ∨ (m = .startCycle ∧ t'.pos = .triggering)) ∧
    (t.pos = .publishingBad → t'.pos = t.pos ∨ t'.pos = .sleeping false ∨ (m = .startCycle ∧ t'.pos = .triggering)) ∧
    (t'.pos = .converting → t.pos = .converting ∨ t.pos = .awaitingEcho) ∧
    (t'.pos = .publishingBad → t.pos = .publishingBad ∨ t.pos = .awaitingTriggerDone ∨ t.pos = .awaitingEcho)

/-- R250, row "start a cycle": from every position the host may issue START_CYCLE; it begins a cycle, and nothing of the one
under way is left in PHASE, EDGE or the signal (the positions are the model's form, log entry 17). -/
def Obligations.TaskMayStartACycleAtAnyTime : Prop :=
  ∀ t : TaskSystem, ∃ t', t.act .startCycle = some t' ∧ t'.pos = .triggering ∧ t'.block.phase = .trigger ∧
    t'.block.edge = .awaitingRisingEdge ∧ t'.block.sig = false ∧ t'.block.distance = t.block.distance

/-- R250, row "observe": at every position the host may issue every read. It is given the value, or the fault where the sample
it reads holds `⊥`, and nothing else of the block or of the task changes (the records and positions are the model's form, log
entries 6, 7 and 17). -/
def Obligations.HostMayObserveAtAnyTime : Prop :=
  ∀ (t : TaskSystem) (o : Observation), ∃ t', t.act (.observe o) = some t' ∧ t'.pos = t.pos ∧
    match o with
    | .distance => t'.block = { t.block with responses := t.block.responses ++ [⟨.host, t.block.distance⟩] }
    | .status => t'.block = { t.block with responses := t.block.responses ++ [⟨.host, t.block.statusWord⟩] }
    | .sample e => match t.block.element e with
      | some v => t'.block = { t.block with responses := t.block.responses ++ [⟨.host, BitVec.ofNat 32 v.toNat⟩] }
      | none => t'.block = { t.block with faulted := true, faultLog := t.block.faultLog ++ [.unwrittenRead e] }
end

