-- ==== Sys2Proof/Laws/State.lean ====
section
/-!
SUPPORT. For each named update of the state, what every field holds after it.
-/

namespace Sys2Proof.Machine

/-! ## emit -/

@[simp] theorem State.emit_phase (s : State) (o : OutEvent) : (s.emit o).phase = s.phase := rfl
@[simp] theorem State.emit_edge (s : State) (o : OutEvent) : (s.emit o).edge = s.edge := rfl
@[simp] theorem State.emit_capFirst (s : State) (o : OutEvent) : (s.emit o).capFirst = s.capFirst := rfl
@[simp] theorem State.emit_capSecond (s : State) (o : OutEvent) : (s.emit o).capSecond = s.capSecond := rfl
@[simp] theorem State.emit_rawDuration (s : State) (o : OutEvent) : (s.emit o).rawDuration = s.rawDuration := rfl
@[simp] theorem State.emit_sig (s : State) (o : OutEvent) : (s.emit o).sig = s.sig := rfl
@[simp] theorem State.emit_capPol (s : State) (o : OutEvent) : (s.emit o).capPol = s.capPol := rfl
@[simp] theorem State.emit_distance (s : State) (o : OutEvent) : (s.emit o).distance = s.distance := rfl
@[simp] theorem State.emit_out (s : State) (o : OutEvent) : (s.emit o).out = s.out ++ [o] := rfl
@[simp] theorem State.emit_faulted (s : State) (o : OutEvent) : (s.emit o).faulted = s.faulted := rfl
@[simp] theorem State.emit_refused (s : State) (o : OutEvent) : (s.emit o).refused = s.refused := rfl
@[simp] theorem State.emit_faultLog (s : State) (o : OutEvent) : (s.emit o).faultLog = s.faultLog := rfl
@[simp] theorem State.emit_refusalLog (s : State) (o : OutEvent) : (s.emit o).refusalLog = s.refusalLog := rfl
@[simp] theorem State.emit_responses (s : State) (o : OutEvent) : (s.emit o).responses = s.responses := rfl
@[simp] theorem State.emit_inbox (s : State) (o : OutEvent) : (s.emit o).inbox = s.inbox := rfl
@[simp] theorem State.emit_cfg (s : State) (o : OutEvent) : (s.emit o).cfg = s.cfg := rfl

/-! ## respond -/

@[simp] theorem State.respond_phase (s : State) (p : Port) (w : Word) : (s.respond p w).phase = s.phase := rfl
@[simp] theorem State.respond_edge (s : State) (p : Port) (w : Word) : (s.respond p w).edge = s.edge := rfl
@[simp] theorem State.respond_capFirst (s : State) (p : Port) (w : Word) : (s.respond p w).capFirst = s.capFirst := rfl
@[simp] theorem State.respond_capSecond (s : State) (p : Port) (w : Word) : (s.respond p w).capSecond = s.capSecond := rfl
@[simp] theorem State.respond_rawDuration (s : State) (p : Port) (w : Word) : (s.respond p w).rawDuration = s.rawDuration := rfl
@[simp] theorem State.respond_sig (s : State) (p : Port) (w : Word) : (s.respond p w).sig = s.sig := rfl
@[simp] theorem State.respond_capPol (s : State) (p : Port) (w : Word) : (s.respond p w).capPol = s.capPol := rfl
@[simp] theorem State.respond_distance (s : State) (p : Port) (w : Word) : (s.respond p w).distance = s.distance := rfl
@[simp] theorem State.respond_out (s : State) (p : Port) (w : Word) : (s.respond p w).out = s.out := rfl
@[simp] theorem State.respond_faulted (s : State) (p : Port) (w : Word) : (s.respond p w).faulted = s.faulted := rfl
@[simp] theorem State.respond_refused (s : State) (p : Port) (w : Word) : (s.respond p w).refused = s.refused := rfl
@[simp] theorem State.respond_faultLog (s : State) (p : Port) (w : Word) : (s.respond p w).faultLog = s.faultLog := rfl
@[simp] theorem State.respond_refusalLog (s : State) (p : Port) (w : Word) : (s.respond p w).refusalLog = s.refusalLog := rfl
@[simp] theorem State.respond_responses (s : State) (p : Port) (w : Word) : (s.respond p w).responses = s.responses ++ [⟨p, w⟩] := rfl
@[simp] theorem State.respond_inbox (s : State) (p : Port) (w : Word) : (s.respond p w).inbox = s.inbox := rfl
@[simp] theorem State.respond_cfg (s : State) (p : Port) (w : Word) : (s.respond p w).cfg = s.cfg := rfl

/-! ## raiseSignal -/

@[simp] theorem State.raiseSignal_phase (s : State) : (s.raiseSignal).phase = s.phase := rfl
@[simp] theorem State.raiseSignal_edge (s : State) : (s.raiseSignal).edge = s.edge := rfl
@[simp] theorem State.raiseSignal_capFirst (s : State) : (s.raiseSignal).capFirst = s.capFirst := rfl
@[simp] theorem State.raiseSignal_capSecond (s : State) : (s.raiseSignal).capSecond = s.capSecond := rfl
@[simp] theorem State.raiseSignal_rawDuration (s : State) : (s.raiseSignal).rawDuration = s.rawDuration := rfl
@[simp] theorem State.raiseSignal_sig (s : State) : (s.raiseSignal).sig = true := rfl
@[simp] theorem State.raiseSignal_capPol (s : State) : (s.raiseSignal).capPol = s.capPol := rfl
@[simp] theorem State.raiseSignal_distance (s : State) : (s.raiseSignal).distance = s.distance := rfl
@[simp] theorem State.raiseSignal_out (s : State) : (s.raiseSignal).out = s.out := rfl
@[simp] theorem State.raiseSignal_faulted (s : State) : (s.raiseSignal).faulted = s.faulted := rfl
@[simp] theorem State.raiseSignal_refused (s : State) : (s.raiseSignal).refused = s.refused := rfl
@[simp] theorem State.raiseSignal_faultLog (s : State) : (s.raiseSignal).faultLog = s.faultLog := rfl
@[simp] theorem State.raiseSignal_refusalLog (s : State) : (s.raiseSignal).refusalLog = s.refusalLog := rfl
@[simp] theorem State.raiseSignal_responses (s : State) : (s.raiseSignal).responses = s.responses := rfl
@[simp] theorem State.raiseSignal_inbox (s : State) : (s.raiseSignal).inbox = s.inbox := rfl
@[simp] theorem State.raiseSignal_cfg (s : State) : (s.raiseSignal).cfg = s.cfg := rfl

/-! ## clearSignal -/

@[simp] theorem State.clearSignal_phase (s : State) : (s.clearSignal).phase = s.phase := rfl
@[simp] theorem State.clearSignal_edge (s : State) : (s.clearSignal).edge = s.edge := rfl
@[simp] theorem State.clearSignal_capFirst (s : State) : (s.clearSignal).capFirst = s.capFirst := rfl
@[simp] theorem State.clearSignal_capSecond (s : State) : (s.clearSignal).capSecond = s.capSecond := rfl
@[simp] theorem State.clearSignal_rawDuration (s : State) : (s.clearSignal).rawDuration = s.rawDuration := rfl
@[simp] theorem State.clearSignal_sig (s : State) : (s.clearSignal).sig = false := rfl
@[simp] theorem State.clearSignal_capPol (s : State) : (s.clearSignal).capPol = s.capPol := rfl
@[simp] theorem State.clearSignal_distance (s : State) : (s.clearSignal).distance = s.distance := rfl
@[simp] theorem State.clearSignal_out (s : State) : (s.clearSignal).out = s.out := rfl
@[simp] theorem State.clearSignal_faulted (s : State) : (s.clearSignal).faulted = s.faulted := rfl
@[simp] theorem State.clearSignal_refused (s : State) : (s.clearSignal).refused = s.refused := rfl
@[simp] theorem State.clearSignal_faultLog (s : State) : (s.clearSignal).faultLog = s.faultLog := rfl
@[simp] theorem State.clearSignal_refusalLog (s : State) : (s.clearSignal).refusalLog = s.refusalLog := rfl
@[simp] theorem State.clearSignal_responses (s : State) : (s.clearSignal).responses = s.responses := rfl
@[simp] theorem State.clearSignal_inbox (s : State) : (s.clearSignal).inbox = s.inbox := rfl
@[simp] theorem State.clearSignal_cfg (s : State) : (s.clearSignal).cfg = s.cfg := rfl

/-! ## takeFault -/

@[simp] theorem State.takeFault_phase (s : State) (f : Fault) : (s.takeFault f).phase = s.phase := rfl
@[simp] theorem State.takeFault_edge (s : State) (f : Fault) : (s.takeFault f).edge = s.edge := rfl
@[simp] theorem State.takeFault_capFirst (s : State) (f : Fault) : (s.takeFault f).capFirst = s.capFirst := rfl
@[simp] theorem State.takeFault_capSecond (s : State) (f : Fault) : (s.takeFault f).capSecond = s.capSecond := rfl
@[simp] theorem State.takeFault_rawDuration (s : State) (f : Fault) : (s.takeFault f).rawDuration = s.rawDuration := rfl
@[simp] theorem State.takeFault_sig (s : State) (f : Fault) : (s.takeFault f).sig = s.sig := rfl
@[simp] theorem State.takeFault_capPol (s : State) (f : Fault) : (s.takeFault f).capPol = s.capPol := rfl
@[simp] theorem State.takeFault_distance (s : State) (f : Fault) : (s.takeFault f).distance = s.distance := rfl
@[simp] theorem State.takeFault_out (s : State) (f : Fault) : (s.takeFault f).out = s.out := rfl
@[simp] theorem State.takeFault_faulted (s : State) (f : Fault) : (s.takeFault f).faulted = true := rfl
@[simp] theorem State.takeFault_refused (s : State) (f : Fault) : (s.takeFault f).refused = s.refused := rfl
@[simp] theorem State.takeFault_faultLog (s : State) (f : Fault) : (s.takeFault f).faultLog = s.faultLog ++ [f] := rfl
@[simp] theorem State.takeFault_refusalLog (s : State) (f : Fault) : (s.takeFault f).refusalLog = s.refusalLog := rfl
@[simp] theorem State.takeFault_responses (s : State) (f : Fault) : (s.takeFault f).responses = s.responses := rfl
@[simp] theorem State.takeFault_inbox (s : State) (f : Fault) : (s.takeFault f).inbox = s.inbox := rfl
@[simp] theorem State.takeFault_cfg (s : State) (f : Fault) : (s.takeFault f).cfg = s.cfg := rfl

/-! ## takeRefusal -/

@[simp] theorem State.takeRefusal_phase (s : State) (r : DecodeRefusal) : (s.takeRefusal r).phase = s.phase := rfl
@[simp] theorem State.takeRefusal_edge (s : State) (r : DecodeRefusal) : (s.takeRefusal r).edge = s.edge := rfl
@[simp] theorem State.takeRefusal_capFirst (s : State) (r : DecodeRefusal) : (s.takeRefusal r).capFirst = s.capFirst := rfl
@[simp] theorem State.takeRefusal_capSecond (s : State) (r : DecodeRefusal) : (s.takeRefusal r).capSecond = s.capSecond := rfl
@[simp] theorem State.takeRefusal_rawDuration (s : State) (r : DecodeRefusal) : (s.takeRefusal r).rawDuration = s.rawDuration := rfl
@[simp] theorem State.takeRefusal_sig (s : State) (r : DecodeRefusal) : (s.takeRefusal r).sig = s.sig := rfl
@[simp] theorem State.takeRefusal_capPol (s : State) (r : DecodeRefusal) : (s.takeRefusal r).capPol = s.capPol := rfl
@[simp] theorem State.takeRefusal_distance (s : State) (r : DecodeRefusal) : (s.takeRefusal r).distance = s.distance := rfl
@[simp] theorem State.takeRefusal_out (s : State) (r : DecodeRefusal) : (s.takeRefusal r).out = s.out := rfl
@[simp] theorem State.takeRefusal_faulted (s : State) (r : DecodeRefusal) : (s.takeRefusal r).faulted = s.faulted := rfl
@[simp] theorem State.takeRefusal_refused (s : State) (r : DecodeRefusal) : (s.takeRefusal r).refused = true := rfl
@[simp] theorem State.takeRefusal_faultLog (s : State) (r : DecodeRefusal) : (s.takeRefusal r).faultLog = s.faultLog := rfl
@[simp] theorem State.takeRefusal_refusalLog (s : State) (r : DecodeRefusal) : (s.takeRefusal r).refusalLog = s.refusalLog ++ [r] := rfl
@[simp] theorem State.takeRefusal_responses (s : State) (r : DecodeRefusal) : (s.takeRefusal r).responses = s.responses := rfl
@[simp] theorem State.takeRefusal_inbox (s : State) (r : DecodeRefusal) : (s.takeRefusal r).inbox = s.inbox := rfl
@[simp] theorem State.takeRefusal_cfg (s : State) (r : DecodeRefusal) : (s.takeRefusal r).cfg = s.cfg := rfl

/-! ## present -/

@[simp] theorem State.present_phase (s : State) (op : Operation) : (s.present op).phase = s.phase := rfl
@[simp] theorem State.present_edge (s : State) (op : Operation) : (s.present op).edge = s.edge := rfl
@[simp] theorem State.present_capFirst (s : State) (op : Operation) : (s.present op).capFirst = s.capFirst := rfl
@[simp] theorem State.present_capSecond (s : State) (op : Operation) : (s.present op).capSecond = s.capSecond := rfl
@[simp] theorem State.present_rawDuration (s : State) (op : Operation) : (s.present op).rawDuration = s.rawDuration := rfl
@[simp] theorem State.present_sig (s : State) (op : Operation) : (s.present op).sig = s.sig := rfl
@[simp] theorem State.present_capPol (s : State) (op : Operation) : (s.present op).capPol = s.capPol := rfl
@[simp] theorem State.present_distance (s : State) (op : Operation) : (s.present op).distance = s.distance := rfl
@[simp] theorem State.present_out (s : State) (op : Operation) : (s.present op).out = s.out := rfl
@[simp] theorem State.present_faulted (s : State) (op : Operation) : (s.present op).faulted = s.faulted := rfl
@[simp] theorem State.present_refused (s : State) (op : Operation) : (s.present op).refused = s.refused := rfl
@[simp] theorem State.present_faultLog (s : State) (op : Operation) : (s.present op).faultLog = s.faultLog := rfl
@[simp] theorem State.present_refusalLog (s : State) (op : Operation) : (s.present op).refusalLog = s.refusalLog := rfl
@[simp] theorem State.present_responses (s : State) (op : Operation) : (s.present op).responses = s.responses := rfl
@[simp] theorem State.present_inbox (s : State) (op : Operation) : (s.present op).inbox = op :: s.inbox := rfl
@[simp] theorem State.present_cfg (s : State) (op : Operation) : (s.present op).cfg = s.cfg := rfl

end Sys2Proof.Machine
end

