-- ==== Sys2Proof/Laws/Ops.lean ====
section
/-!
SUPPORT. One lemma per shared operation that says everything it can do, and the two branches of the duration function.
-/

namespace Sys2Proof.Machine

@[simp] theorem State.element_capFirst (s : State) : s.element .capFirst = s.capFirst := rfl
@[simp] theorem State.element_capSecond (s : State) : s.element .capSecond = s.capSecond := rfl
@[simp] theorem State.element_rawDuration (s : State) : s.element .rawDuration = s.rawDuration := rfl

theorem State.readElement_of_some {s : State} {e : Element} {v : Counter} (h : s.element e = some v) (k : Counter → State) :
    s.readElement e k = k v := by simp [State.readElement, h]

theorem State.readElement_of_none {s : State} {e : Element} (h : s.element e = none) (k : Counter → State) :
    s.readElement e k = s.takeFault (.unwrittenRead e) := by simp [State.readElement, h]

/-- Everything a read of an element can do: go on with the value held, or take the fault. -/
theorem State.readElement_cases (s : State) (e : Element) (k : Counter → State) :
    (∃ v, s.element e = some v ∧ s.readElement e k = k v) ∨
      (s.element e = none ∧ s.readElement e k = s.takeFault (.unwrittenRead e)) := by
  cases h : s.element e with
  | some v => exact .inl ⟨v, rfl, State.readElement_of_some h k⟩
  | none => exact .inr ⟨rfl, State.readElement_of_none h k⟩

theorem State.nextOperation_nil {s : State} (h : s.inbox = []) : s.nextOperation = none := by
  simp [State.nextOperation, h]

theorem State.nextOperation_cons {s : State} {op : Operation} {rest : List Operation} (h : s.inbox = op :: rest) :
    s.nextOperation = some (op, { s with inbox := rest }) := by simp [State.nextOperation, h]

@[simp] theorem State.nextOperation_present (s : State) (op : Operation) : (s.present op).nextOperation = some (op, s) := rfl

/-- The non-wrap branch, as a number. -/
theorem duration_of_lt {c : Cfg} (hc : c.calOffset = 1) {first second : Counter} (h : first.toNat < second.toNat) :
    (duration c first second).toNat = second.toNat - first.toNat - 1 := by
  have h1 := first.isLt
  have h2 := second.isLt
  have ht : (second.toNat : Int) - first.toNat - ((1 : Nat) : Int) ≥ 0 := by omega
  simp only [duration, hc, gt_iff_lt, h, if_true, ht, BitVec.toNat_ofInt]
  omega

/-- The wraparound branch, as a number, but for the one pair whose formula is negative. -/
theorem duration_of_le {c : Cfg} (hc : c.calOffset = 1) {first second : Counter} (h : second.toNat ≤ first.toNat)
    (hp : ¬(first.toNat = 65535 ∧ second.toNat = 0)) :
    (duration c first second).toNat = 65534 + second.toNat - first.toNat := by
  have h1 := first.isLt
  have h2 := second.isLt
  have hn : ¬first.toNat < second.toNat := by omega
  have ht : ((65535 : Nat) : Int) - first.toNat + second.toNat - ((1 : Nat) : Int) ≥ 0 := by omega
  simp only [duration, hc, gt_iff_lt, hn, if_false, counterMax, ht, if_true, BitVec.toNat_ofInt]
  omega

/-- The conversion lies between 0 and the largest converted distance. -/
theorem convert_bounds (c : Cfg) (raw : Counter) : 0 ≤ convert c raw ∧ convert c raw ≤ c.dmax := by
  refine ⟨Int.natCast_nonneg _, Int.ofNat_le.mpr (Nat.div_le_div_right (Nat.mul_le_mul_right _ ?_))⟩
  have := raw.isLt
  simp only [counterMax]; omega

end Sys2Proof.Machine
end

