-- ==== Sys2Proof/Laws/Exec.lean ====
section
/-!
SUPPORT. What each meaning with more than one branch can do, and the two shapes of a step.
-/

namespace Sys2Proof.Machine

/-- The three branches of EV_CAPTURE, the last one with its fault. -/
theorem execEvCapture_cases (v : Counter) (s : State) :
    (s.phase = .trigger ∧ execEvCapture v s = .next (s.emit .clrCaptureFlag)) ∨
      (s.phase = .echo ∧ s.edge = .awaitingRisingEdge ∧ execEvCapture v s = .next (captureRising v s)) ∨
      (s.phase = .echo ∧ s.edge = .awaitingFallingEdge ∧ ∃ first, s.capFirst = some first ∧
        execEvCapture v s = .next
          (({ s with capSecond := some v, rawDuration := some (duration s.cfg first v) }.raiseSignal).emit .clrCaptureFlag)) ∨
      (s.phase = .echo ∧ s.edge = .awaitingFallingEdge ∧ s.capFirst = none ∧
        execEvCapture v s = .next (s.takeFault (.unwrittenRead .capFirst))) := by
  cases hp : s.phase <;> cases he : s.edge <;> cases hf : s.capFirst <;>
    simp [execEvCapture, captureFalling, State.readElement, hp, he, hf]

theorem execEvUpdate_cases (s : State) :
    (s.phase = .trigger ∧ execEvUpdate s = .next (({ s with phase := .echo }.raiseSignal).emit .clrUpdateFlag)) ∨
      (s.phase = .echo ∧ execEvUpdate s = .next (s.emit .clrUpdateFlag)) := by
  cases hp : s.phase <;> simp [execEvUpdate, hp]

theorem execAcquire_cases (s : State) :
    (s.sig = true ∧ execAcquire s = .next (s.clearSignal.respond .host 1)) ∨
      (s.sig = false ∧ execAcquire s = .next (s.respond .host 0)) := by
  cases h : s.sig <;> simp [execAcquire, h]

theorem execConvertPublish_cases (s : State) :
    (∃ raw, s.rawDuration = some raw ∧
        execConvertPublish s = .next ({ s with distance := encS32 (convert s.cfg raw) }.respond .host 0)) ∨
      (s.rawDuration = none ∧ execConvertPublish s = .next (s.takeFault (.unwrittenRead .rawDuration))) := by
  cases h : s.rawDuration <;> simp [execConvertPublish, State.readElement, h]

theorem State.respondElement_cases (s : State) (e : Element) :
    (∃ v, s.element e = some v ∧ s.respondElement e = s.respond .host (zext32 v)) ∨
      (s.element e = none ∧ s.respondElement e = s.takeFault (.unwrittenRead e)) :=
  s.readElement_cases e _

/-- Everything an operation can do to the block: one case per branch of a meaning, the faults among them. -/
inductive Effect (s : State) : Instr → State → Prop where
  | updateTrigger (h : s.phase = .trigger) :
      Effect s .evUpdate { s with phase := .echo, sig := true, out := s.out ++ [.clrUpdateFlag] }
  | updateEcho (h : s.phase = .echo) : Effect s .evUpdate { s with out := s.out ++ [.clrUpdateFlag] }
  | captureTrigger (v : Counter) (h : s.phase = .trigger) :
      Effect s (.evCapture v) { s with out := s.out ++ [.clrCaptureFlag] }
  | captureRising (v : Counter) (h : s.phase = .echo) (he : s.edge = .awaitingRisingEdge) :
      Effect s (.evCapture v) { s with
        capFirst := some v, capPol := .falling, edge := .awaitingFallingEdge, out := s.out ++ [.clrCaptureFlag] }
  | captureFalling (v first : Counter) (h : s.phase = .echo) (he : s.edge = .awaitingFallingEdge)
      (hf : s.capFirst = some first) :
      Effect s (.evCapture v) { s with
        capSecond := some v, rawDuration := some (duration s.cfg first v), sig := true,
        out := s.out ++ [.clrCaptureFlag] }
  | captureFault (v : Counter) (h : s.phase = .echo) (he : s.edge = .awaitingFallingEdge) (hf : s.capFirst = none) :
      Effect s (.evCapture v) { s with faulted := true, faultLog := s.faultLog ++ [.unwrittenRead .capFirst] }
  | startCycle : Effect s .startCycle { s with
      phase := .trigger, edge := .awaitingRisingEdge, sig := false, responses := s.responses ++ [⟨.host, 0⟩] }
  | armEcho : Effect s .armEcho { s with
      edge := .awaitingRisingEdge, capPol := .rising, out := s.out ++ [.clrCaptureFlag],
      responses := s.responses ++ [⟨.host, 0⟩] }
  | acquireTaken (h : s.sig = true) :
      Effect s .acquire { s with sig := false, responses := s.responses ++ [⟨.host, 1⟩] }
  | acquireEmpty (h : s.sig = false) : Effect s .acquire { s with responses := s.responses ++ [⟨.host, 0⟩] }
  | convert (raw : Counter) (h : s.rawDuration = some raw) :
      Effect s .convertPublish { s with
        distance := encS32 (convert s.cfg raw), responses := s.responses ++ [⟨.host, 0⟩] }
  | convertFault (h : s.rawDuration = none) :
      Effect s .convertPublish { s with faulted := true, faultLog := s.faultLog ++ [.unwrittenRead .rawDuration] }
  | publishBad : Effect s .publishBad { s with
      distance := encS32 badValue, responses := s.responses ++ [⟨.host, 0⟩] }
  | readDistance (port : Port) (h : port ∈ Opcode.rdDistance.ports) :
      Effect s (.rdDistance port) { s with responses := s.responses ++ [⟨port, s.distance⟩] }
  | readDistanceRefused (port : Port) (h : port ∉ Opcode.rdDistance.ports) (r : DecodeRefusal) :
      Effect s (.rdDistance port) { s with refused := true, refusalLog := s.refusalLog ++ [r] }
  | readStatus : Effect s .rdStatus { s with responses := s.responses ++ [⟨.host, s.statusWord⟩] }
  | readCapFirst (v : Counter) (h : s.capFirst = some v) :
      Effect s .rdCapFirst { s with responses := s.responses ++ [⟨.host, zext32 v⟩] }
  | readCapFirstFault (h : s.capFirst = none) :
      Effect s .rdCapFirst { s with faulted := true, faultLog := s.faultLog ++ [.unwrittenRead .capFirst] }
  | readCapSecond (v : Counter) (h : s.capSecond = some v) :
      Effect s .rdCapSecond { s with responses := s.responses ++ [⟨.host, zext32 v⟩] }
  | readCapSecondFault (h : s.capSecond = none) :
      Effect s .rdCapSecond { s with faulted := true, faultLog := s.faultLog ++ [.unwrittenRead .capSecond] }
  | readRawDuration (v : Counter) (h : s.rawDuration = some v) :
      Effect s .rdRawDuration { s with responses := s.responses ++ [⟨.host, zext32 v⟩] }
  | readRawDurationFault (h : s.rawDuration = none) :
      Effect s .rdRawDuration { s with faulted := true, faultLog := s.faultLog ++ [.unwrittenRead .rawDuration] }

/-- What an operation does is one of the listed effects. -/
theorem exec_effect {i : Instr} {s t : State} (h : exec i s = .next t) : Effect s i t := by
  cases i with
  | evUpdate =>
    rcases execEvUpdate_cases s with ⟨hp, h'⟩ | ⟨hp, h'⟩ <;> rw [exec, h'] at h <;> cases h
    · exact .updateTrigger hp
    · exact .updateEcho hp
  | evCapture v =>
    rcases execEvCapture_cases v s with ⟨hp, h'⟩ | ⟨hp, he, h'⟩ | ⟨hp, he, first, hf, h'⟩ | ⟨hp, he, hf, h'⟩ <;>
      rw [exec, h'] at h <;> cases h
    · exact .captureTrigger v hp
    · exact .captureRising v hp he
    · exact .captureFalling v first hp he hf
    · exact .captureFault v hp he hf
  | startCycle => cases h; exact .startCycle
  | armEcho => cases h; exact .armEcho
  | acquire =>
    rcases execAcquire_cases s with ⟨hs, h'⟩ | ⟨hs, h'⟩ <;> rw [exec, h'] at h <;> cases h
    · exact .acquireTaken hs
    · exact .acquireEmpty hs
  | convertPublish =>
    rcases execConvertPublish_cases s with ⟨raw, hr, h'⟩ | ⟨hr, h'⟩ <;> rw [exec, h'] at h <;> cases h
    · exact .convert raw hr
    · exact .convertFault hr
  | publishBad => cases h; exact .publishBad
  | rdDistance port =>
    by_cases hp : port ∈ Opcode.rdDistance.ports
    · rw [exec, execRdDistance, if_pos hp] at h; cases h; exact .readDistance port hp
    · rw [exec, execRdDistance, if_neg hp] at h; cases h; exact .readDistanceRefused port hp _
  | rdStatus => cases h; exact .readStatus
  | rdCapFirst =>
    rcases s.respondElement_cases .capFirst with ⟨v, hv, h'⟩ | ⟨hv, h'⟩ <;> rw [exec, execRdCapFirst, h'] at h <;> cases h
    · exact .readCapFirst v hv
    · exact .readCapFirstFault hv
  | rdCapSecond =>
    rcases s.respondElement_cases .capSecond with ⟨v, hv, h'⟩ | ⟨hv, h'⟩ <;> rw [exec, execRdCapSecond, h'] at h <;> cases h
    · exact .readCapSecond v hv
    · exact .readCapSecondFault hv
  | rdRawDuration =>
    rcases s.respondElement_cases .rawDuration with ⟨v, hv, h'⟩ | ⟨hv, h'⟩ <;> rw [exec, execRdRawDuration, h'] at h <;> cases h
    · exact .readRawDuration v hv
    · exact .readRawDurationFault hv

theorem step_nil {s : State} (h : s.inbox = []) : step s = .next s := by
  simp [step, State.nextOperation_nil h]

theorem step_cons {s : State} {op : Operation} {rest : List Operation} (h : s.inbox = op :: rest) :
    step s = perform op { s with inbox := rest } := by simp [step, State.nextOperation_cons h]

theorem perform_ok {op : Operation} {i : Instr} (h : decode op = .accepted i) (s : State) : perform op s = exec i s := by
  simp [perform, h]

theorem perform_error {op : Operation} {r : DecodeRefusal} (h : decode op = .refused r) (s : State) :
    perform op s = .next (s.takeRefusal r) := by simp [perform, h]

@[simp] theorem step_present (s : State) (op : Operation) : step (s.present op) = perform op s := rfl

end Sys2Proof.Machine
end

