-- ==== Sys2Proof/Laws/Step.lean ====
section
/-!
SUPPORT. What a step and a run can do.
-/

namespace Sys2Proof.Machine

@[simp] theorem State.unwritten_eq_some (s : State) (e e' : Element) :
    s.unwritten e = some e' ↔ s.element e = none ∧ e = e' := by
  by_cases h : s.element e = none <;> simp [State.unwritten, h]

@[simp] theorem State.unwritten_eq_none (s : State) (e : Element) : s.unwritten e = none ↔ s.element e ≠ none := by
  by_cases h : s.element e = none <;> simp [State.unwritten, h]

/-- Everything a step can do: keep the state where nothing is delivered, perform the next operation, or refuse its word. -/
theorem step_cases {s t : State} (h : step s = .next t) :
    (s.inbox = [] ∧ t = s) ∨ ∃ op rest, s.inbox = op :: rest ∧
      ((∃ i, decode op = .accepted i ∧ exec i { s with inbox := rest } = .next t) ∨
        (∃ r, decode op = .refused r ∧ t = State.takeRefusal { s with inbox := rest } r)) := by
  cases hi : s.inbox with
  | nil => rw [step_nil hi] at h; cases h; exact .inl ⟨rfl, rfl⟩
  | cons op rest =>
    rw [step_cons hi] at h
    refine .inr ⟨op, rest, rfl, ?_⟩
    cases hd : decode op with
    | accepted i => rw [perform_ok hd] at h; exact .inl ⟨i, rfl, h⟩
    | refused r => rw [perform_error hd] at h; cases h; exact .inr ⟨r, rfl, rfl⟩

theorem run_succ_of_next {s u : State} (n : Nat) (h : step s = .next u) : run (n + 1) s = run n u := by
  simp [run, h]

theorem core_run_next {M : Host.Core} {s u : M.State} (n : Nat) (h : M.step s = .next u) : M.run (n + 1) s = M.run n u := by
  simp [Host.Core.run, h]

theorem core_run_fault {M : Host.Core} {s : M.State} {r : M.Fault} (n : Nat) (h : M.step s = .fault r) :
    M.run (n + 1) s = .fault r := by simp [Host.Core.run, h]

theorem core_run_refused {M : Host.Core} {s : M.State} {r : M.Refusal} (n : Nat) (h : M.step s = .refused r) :
    M.run (n + 1) s = .refused r := by simp [Host.Core.run, h]

/-- `run` is the run of the host's interface. -/
theorem run_eq_core (n : Nat) (s : State) : run n s = Host.Core.run core n s := by
  induction n generalizing s with
  | zero => rfl
  | succ n ih =>
    show (match step s with
      | .next t => run n t
      | .fault r => .fault r
      | .refused r => .refused r) = _
    have hs : Host.Core.step core s = step s := rfl
    cases h : step s with
    | next t => exact (ih t).trans (core_run_next n (hs.trans h)).symm
    | fault r => exact (core_run_fault n (hs.trans h)).symm
    | refused r => exact (core_run_refused n (hs.trans h)).symm

end Sys2Proof.Machine
end

