-- ==== Sys2Proof/Tests/Slice0.lean ====
section
/-!
SUPPORT. Checks of the model against the vectors of 95_test_vectors.md (each named by its number there), and for every
statement with hypotheses the witnesses that meet them.
-/

namespace Sys2Proof.Tests

open Sys2Proof Sys2Proof.Machine

/-- A state written as 95_test_vectors.md writes it. -/
def st (phase : Phase) (edge : EdgeState) (first second raw : Option Counter) (sig : Bool) (pol : Polarity)
    (distance : Int) : State :=
  { State.reset with
    phase := phase, edge := edge, capFirst := first, capSecond := second, rawDuration := raw, sig := sig, capPol := pol,
    distance := encS32 distance }

/-- The next state of an operation. -/
def after (i : Instr) (s : State) : Option State :=
  match exec i s with
  | .next t => some t
  | _ => none

/-- `s` with an output event appended. -/
def emits (s : State) (o : OutEvent) : Option State := some (s.emit o)

/-- `s` with a response appended. -/
def responds (s : State) (p : Port) (w : Word) : Option State := some (s.respond p w)

/-- The state before E14, H1 and H12: a completed cycle. -/
def done : State := st .echo .awaitingFallingEdge (some 100) (some 332) (some 231) true .falling 9

/-! ## Well-formedness and decoding -/

theorem test_rdDistance_on_event_is_ill_formed : (Instr.rdDistance .event).wellFormed = false := by decide

theorem test_rdDistance_on_its_ports_is_well_formed :
    (Instr.rdDistance .host).wellFormed = true ∧ (Instr.rdDistance .reader).wellFormed = true := by decide

/-- Words written out from the table of rule R76: one event, one command, one read, and the operand bits. -/
theorem test_words_written_out :
    decode ⟨.event, 0b00000001000000000000000000000000⟩ = .accepted .evUpdate ∧
    decode ⟨.event, 0b00000010000000001000000000000001⟩ = .accepted (.evCapture 0x8001) ∧
    decode ⟨.host, 0b00010000000000000000000000000000⟩ = .accepted .startCycle ∧
    decode ⟨.host, 0b00010001000000000000000000000000⟩ = .accepted .armEcho ∧
    decode ⟨.host, 0b00010010000000000000000000000000⟩ = .accepted .acquire ∧
    decode ⟨.host, 0b00010011000000000000000000000000⟩ = .accepted .convertPublish ∧
    decode ⟨.host, 0b00010100000000000000000000000000⟩ = .accepted .publishBad ∧
    decode ⟨.host, 0b00100000000000000000000000000000⟩ = .accepted (.rdDistance .host) ∧
    decode ⟨.host, 0b00100001000000000000000000000000⟩ = .accepted .rdStatus ∧
    decode ⟨.host, 0b00100010000000000000000000000000⟩ = .accepted .rdCapFirst ∧
    decode ⟨.host, 0b00100011000000000000000000000000⟩ = .accepted .rdCapSecond ∧
    decode ⟨.host, 0b00100100000000000000000000000000⟩ = .accepted .rdRawDuration := by decide

/-- D2v to D8v. -/
theorem test_decode_reserved_opcodes :
    decode ⟨.event, 0x0200FFFF⟩ = .accepted (.evCapture 65535) ∧ decode ⟨.reader, 0x20000000⟩ = .accepted (.rdDistance .reader) ∧
    decode ⟨.event, 0x00000000⟩ = .refused (.reservedOpcode 0) ∧
    decode ⟨.host, 0x15000000⟩ = .refused (.reservedOpcode 0x15000000) ∧
    decode ⟨.host, 0xFF000000⟩ = .refused (.reservedOpcode 0xFF000000) ∧
    decode ⟨.host, 0x15010000⟩ = .refused (.reservedOpcode 0x15010000) := by decide

/-- D9v to D13v. -/
theorem test_decode_reserved_fields :
    decode ⟨.event, 0x02010000⟩ = .refused (.reservedFieldNonzero 0x02010000) ∧
    decode ⟨.host, 0x10010001⟩ = .refused (.reservedFieldNonzero 0x10010001) ∧
    decode ⟨.event, 0x01000001⟩ = .refused (.argNotZero 0x01000001) ∧
    decode ⟨.host, 0x01000001⟩ = .refused (.argNotZero 0x01000001) ∧
    decode ⟨.host, 0x20000001⟩ = .refused (.argNotZero 0x20000001) := by decide

/-- D14v to D18v. -/
theorem test_decode_wrong_ports :
    decode ⟨.host, 0x01000000⟩ = .refused (.wrongPort 0x01000000 .host) ∧
    decode ⟨.host, 0x02000064⟩ = .refused (.wrongPort 0x02000064 .host) ∧
    decode ⟨.event, 0x10000000⟩ = .refused (.wrongPort 0x10000000 .event) ∧
    decode ⟨.reader, 0x21000000⟩ = .refused (.wrongPort 0x21000000 .reader) ∧
    decode ⟨.reader, 0x12000000⟩ = .refused (.wrongPort 0x12000000 .reader) := by decide

theorem test_table_words :
    decodeTableWord 32 0x02000000 = some (.evCapture 0) ∧ decodeTableWord 32 0x20000000 = some (.rdDistance .host) ∧
      decodeTableWord 32 0x15000000 = none := by decide

/-- The assembled words of programs P1 and P6. -/
theorem test_assembled_lines :
    (readLine "event:  EV_CAPTURE 332   ; falling" = .ok (some ⟨some .event, .evCapture, some 332⟩)) ∧
    (readLine "EV_CAPTURE 0x14C" = .ok (some ⟨none, .evCapture, some 332⟩)) ∧
    ((⟨none, .evCapture, some 332⟩ : AsmLine).assemble = .ok ⟨.event, 0x0200014C⟩) ∧
    ((⟨none, .convertPublish, none⟩ : AsmLine).assemble = .ok ⟨.host, 0x13000000⟩) ∧
    (Pseudo.getDistance.expand.assemble = .ok ⟨.reader, 0x20000000⟩) :=
  ⟨rfl, rfl, rfl, rfl, rfl⟩

/-! ## Arithmetic -/

/-- A row of L2.1: first, second, the result under MOD16 and the result under ZERO. -/
def durationRow (x : Counter × Counter × Counter × Counter) : Bool :=
  duration Cfg.default x.1 x.2.1 == x.2.2.1 && duration { wrapUnderflowMode := .zero } x.1 x.2.1 == x.2.2.2

/-- L2.1, the non-wrap branch. -/
theorem test_duration_vectors_not_wrapped :
    [(0, 1, 0, 0), (0, 2, 1, 1), (100, 101, 0, 0), (32767, 32768, 0, 0), (65534, 65535, 0, 0), (0, 65535, 65534, 65534),
      (100, 332, 231, 231), (1000, 1233, 232, 232), (4000, 4100, 99, 99)].all durationRow = true := by decide

/-- L2.1, the wraparound branch. -/
theorem test_duration_vectors_wrapped :
    [(0, 0, 65534, 65534), (5, 5, 65534, 65534), (65535, 65535, 65534, 65534), (65535, 0, 65535, 0), (65535, 1, 0, 0),
      (65535, 2, 1, 1), (1, 0, 65533, 65533), (65535, 65534, 65533, 65533), (32768, 32767, 65533, 65533),
      (65000, 500, 1034, 1034), (60000, 100, 5634, 5634)].all durationRow = true := by decide

/-- L2.2, with the row of the non-default configuration. -/
theorem test_convert_vectors :
    (∀ x ∈ ([(0, 0), (1, 0), (23, 0), (24, 1), (115, 4), (116, 5), (231, 9), (232, 10), (1034, 44), (1160, 50), (5634, 242),
        (15200, 655), (65533, 2824), (65534, 2824), (65535, 2824)] : List (Counter × Int)),
      convert Cfg.default x.1 = x.2) ∧
    (∀ x ∈ ([(58, 1), (57, 0), (65535, 1129)] : List (Counter × Int)),
      convert { tickNum := 1, tickDen := 1 } x.1 = x.2) := by decide

/-! ## One step of each operation -/

/-- E3: EDGE is untouched. -/
theorem test_evUpdate_in_trigger :
    after .evUpdate (st .trigger .awaitingFallingEdge (some 7) (some 9) (some 1) false .falling 3) =
      emits (st .echo .awaitingFallingEdge (some 7) (some 9) (some 1) true .falling 3) .clrUpdateFlag := by decide

/-- E5. -/
theorem test_evUpdate_in_echo :
    after .evUpdate (st .echo .awaitingFallingEdge (some 100) none none false .falling (-1)) =
      emits (st .echo .awaitingFallingEdge (some 100) none none false .falling (-1)) .clrUpdateFlag := by decide

/-- E9: SIG is untouched. -/
theorem test_evCapture_rising :
    after (.evCapture 65535) (st .echo .awaitingRisingEdge none none none true .rising (-1)) =
      emits (st .echo .awaitingFallingEdge (some 65535) none none true .falling (-1)) .clrCaptureFlag := by decide

/-- E14: the repeated falling edge. -/
theorem test_evCapture_repeated_falling :
    after (.evCapture 400) done =
      emits (st .echo .awaitingFallingEdge (some 100) (some 400) (some 299) true .falling 9) .clrCaptureFlag := by decide

/-- H1. -/
theorem test_startCycle :
    after .startCycle done =
      responds (st .trigger .awaitingRisingEdge (some 100) (some 332) (some 231) false .falling 9) .host 0 := by decide

/-- H3. -/
theorem test_armEcho :
    (after .armEcho (st .echo .awaitingFallingEdge (some 100) none none false .falling (-1))) =
      responds ((st .echo .awaitingRisingEdge (some 100) none none false .rising (-1)).emit .clrCaptureFlag) .host 0 := by
  decide

/-- H5. -/
theorem test_acquire_takes_the_signal :
    after .acquire (st .echo .awaitingRisingEdge none none none true .rising (-1)) =
      responds (st .echo .awaitingRisingEdge none none none false .rising (-1)) .host 1 := by decide

/-- H6. -/
theorem test_acquire_finds_no_signal :
    after .acquire (st .echo .awaitingRisingEdge none none none false .rising (-1)) =
      responds (st .echo .awaitingRisingEdge none none none false .rising (-1)) .host 0 := by decide

/-- H7. -/
theorem test_convertPublish :
    after .convertPublish (st .echo .awaitingFallingEdge (some 100) (some 332) (some 231) false .falling (-1)) =
      responds (st .echo .awaitingFallingEdge (some 100) (some 332) (some 231) false .falling 9) .host 0 := by decide

/-- H11. -/
theorem test_convertPublish_unwritten :
    after .convertPublish State.reset = some { State.reset with
      faulted := true, faultLog := [.unwrittenRead .rawDuration] } := by decide

/-- Q13, Q14, and the same of CAP_SECOND (R163): a read right after reset is the fault, with no response. -/
theorem test_sample_reads_at_reset :
    after .rdCapFirst State.reset = some { State.reset with
      faulted := true, faultLog := [.unwrittenRead .capFirst] } ∧
    after .rdCapSecond State.reset = some { State.reset with
      faulted := true, faultLog := [.unwrittenRead .capSecond] } ∧
    after .rdRawDuration State.reset = some { State.reset with
      faulted := true, faultLog := [.unwrittenRead .rawDuration] } := by decide

/-- H12. -/
theorem test_publishBad :
    after .publishBad done =
      responds (st .echo .awaitingFallingEdge (some 100) (some 332) (some 231) true .falling (-1)) .host 0 := by decide

/-- Q1. -/
theorem test_rdDistance_at_reset :
    after (.rdDistance .reader) State.reset = responds State.reset .reader 0xFFFFFFFF := by decide

/-- Q5 and Q6. -/
theorem test_rdStatus :
    (st .echo .awaitingRisingEdge none none none true .rising (-1)).statusWord = 0x00000005 ∧
      after .rdStatus (st .echo .awaitingFallingEdge none none none false .falling (-1)) =
        responds (st .echo .awaitingFallingEdge none none none false .falling (-1)) .host 0x0000000B := by decide

/-- Q10: zero-extended, not sign-extended. -/
theorem test_rdCapFirst :
    after .rdCapFirst (st .echo .awaitingFallingEdge (some 65535) none none false .falling (-1)) =
      responds (st .echo .awaitingFallingEdge (some 65535) none none false .falling (-1)) .host 0x0000FFFF := by decide

/-- Q11, on another state. -/
theorem test_rdCapSecond : after .rdCapSecond done = responds done .host 332 := by decide

/-- Q12. -/
theorem test_rdRawDuration : after .rdRawDuration done = responds done .host 0x000000E7 := by decide

/-- P6, first line: the refused word sets REFUSED and the block goes on. -/
theorem test_refused_word :
    perform ⟨.reader, 0x21000000⟩ State.reset = .next { State.reset with
      refused := true, refusalLog := [.wrongPort 0x21000000 .reader] } := rfl

/-! ## Witnesses: states and operands that meet the hypotheses of each statement -/

/-- The reset state with these operations delivered. -/
def withOps (ops : List Operation) : State := { State.reset with inbox := ops }

theorem witness_StepPerformsTheDecodedOperation :
    (withOps [⟨.event, 0x0200FFFF⟩]).inbox = ⟨.event, 0x0200FFFF⟩ :: [] ∧
      decode ⟨.event, 0x0200FFFF⟩ = .accepted (.evCapture 0xFFFF) := by decide

theorem witness_RefusedWordOnlySetsTheMark :
    ((withOps [⟨.host, 0x25000000⟩]).inbox = ⟨.host, 0x25000000⟩ :: [] ∧
      decode ⟨.host, 0x25000000⟩ = .refused (.reservedOpcode 0x25000000)) ∧
    (step { withOps [⟨.host, 0x10000000⟩] with refused := true } =
        .next ({ State.reset with refused := true }.respond .host 0)) := ⟨by decide, rfl⟩

/-- One operation for each branch of the chain, at the edge of the one before. -/
theorem witness_DecodeChecksInOrder :
    decode ⟨.host, 0x0F000000⟩ = .refused (.reservedOpcode 0x0F000000) ∧
    decode ⟨.host, 0x10800000⟩ = .refused (.reservedFieldNonzero 0x10800000) ∧
    decode ⟨.host, 0x10008000⟩ = .refused (.argNotZero 0x10008000) ∧
    decode ⟨.reader, 0x24000000⟩ = .refused (.wrongPort 0x24000000 .reader) ∧
    decode ⟨.host, 0x24000000⟩ = .accepted .rdRawDuration := by decide

theorem witness_AcceptedWordsAreTheTableRows :
    (0x0200FFFF : Word) &&& 0xFFFF0000 = 0x02000000 ∧ (0x24000000 : Word) &&& 0xFFFFFFFF = 0x24000000 := by decide

theorem witness_DecodeOfEncode :
    (Instr.evCapture 0xFFFF).wellFormed = true ∧ (Instr.rdDistance .reader).wellFormed = true := by decide

theorem witness_EncodeOfDecode : decode ⟨.reader, 0x20000000⟩ = .accepted (.rdDistance .reader) := by decide

theorem witness_PortsAcceptOnlyTheirClasses :
    decode ⟨.event, 0x01000000⟩ = .accepted .evUpdate ∧ decode ⟨.host, 0x14000000⟩ = .accepted .publishBad ∧
      decode ⟨.host, 0x24000000⟩ = .accepted .rdRawDuration ∧
      decode ⟨.reader, 0x20000000⟩ = .accepted (.rdDistance .reader) := by decide

theorem witness_LinkCarriesWordsLittleEndian :
    ([0, 0, 0] : List Byte).length < 4 ∧ opwOfBytes [0x4C, 0x01, 0x00, 0x02] = some (0x0200014C, []) := by decide

theorem witness_AssembledLines :
    (⟨some .reader, .rdStatus, none⟩ : AsmLine).assemble = .ok ⟨.reader, 0x21000000⟩ ∧
    (⟨none, .evCapture, some 65535⟩ : AsmLine).assemble = .ok ⟨.event, 0x0200FFFF⟩ ∧
    (⟨some .host, .evCapture, some 0⟩ : AsmLine).assemble = .ok ⟨.host, 0x02000000⟩ ∧
    (⟨none, .evCapture, some 65536⟩ : AsmLine).assemble = .error .operandOutOfRange ∧
    (⟨none, .evCapture, some (-1)⟩ : AsmLine).assemble = .error .operandOutOfRange ∧
    (⟨none, .acquire, some 0⟩ : AsmLine).assemble = .error .operandNotAllowed := ⟨rfl, rfl, rfl, rfl, rfl, rfl⟩

/-- The statements about `duration` and `convert` at the values where their branches meet. -/
theorem witness_duration_branches :
    Cfg.default.WellFormed ∧ (101 : Counter).toNat > (100 : Counter).toNat ∧
    duration Cfg.default 100 101 = 0 ∧ duration Cfg.default 100 100 = 65534 ∧ duration Cfg.default 100 99 = 65533 ∧
    duration Cfg.default 65535 0 = 0xFFFF ∧ duration { wrapUnderflowMode := .zero } 65535 0 = 0 := by decide

theorem witness_convert : Cfg.default.WellFormed ∧ Cfg.WellFormed { tickNum := 1, tickDen := 1 } := by decide

theorem witness_EventTransitionTable :
    State.reset.phase = .trigger ∧
    (st .echo .awaitingRisingEdge none none none false .rising (-1)).phase = .echo ∧
    (st .echo .awaitingRisingEdge none none none false .rising (-1)).edge = .awaitingRisingEdge ∧
    done.phase = .echo ∧ done.edge = .awaitingFallingEdge ∧ done.capFirst = some 100 := by decide

theorem witness_EventsChangeEdgeOnlyInEcho :
    opClass (.evCapture 0) = 0x0 ∧
      (after (.evCapture 0) (st .echo .awaitingRisingEdge none none none false .rising (-1))).map State.edge =
        some .awaitingFallingEdge := by decide

/-- The next state of a step. -/
def stepped (s : State) : Option State :=
  match step s with
  | .next t => some t
  | _ => none

theorem witness_SignalIsRaisedOnlyByTheTwoBranches :
    (stepped (withOps [⟨.event, 0x01000000⟩])).map State.sig = some true ∧ State.reset.sig = false ∧
    (stepped { done with sig := false, inbox := [⟨.event, 0x0200FFFF⟩] }).map State.sig = some true := by decide

theorem witness_UnwrittenReadTakesTheFault :
    State.reset.capFirst = none ∧ State.reset.capSecond = none ∧ State.reset.rawDuration = none ∧
    (st .echo .awaitingFallingEdge none none none false .rising (-1)).phase = .echo ∧
    (st .echo .awaitingFallingEdge none none none false .rising (-1)).edge = .awaitingFallingEdge ∧
    (st .echo .awaitingFallingEdge none none none false .rising (-1)).capFirst = none := by decide

/-- Each reading operation on an element that holds a value and on one that does not, and a refused word. -/
theorem witness_FaultsAndRefusalsRecordTheirInformation :
    State.reset.unwrittenRead .rdCapFirst = some .capFirst ∧ State.reset.unwrittenRead .rdCapSecond = some .capSecond ∧
    State.reset.unwrittenRead .rdRawDuration = some .rawDuration ∧
    State.reset.unwrittenRead .convertPublish = some .rawDuration ∧ State.reset.unwrittenRead (.evCapture 1) = none ∧
    (st .echo .awaitingFallingEdge none none none false .rising (-1)).unwrittenRead (.evCapture 1) = some .capFirst ∧
    done.unwrittenRead (.evCapture 1) = none ∧ done.unwrittenRead .convertPublish = none ∧
    (after .convertPublish done).isSome = true ∧ (after .rdCapFirst State.reset).isSome = true ∧
    (stepped (withOps [⟨.host, 0x10010000⟩])).map State.refusalLog = some [.reservedFieldNonzero 0x10010000] ∧
    decode ⟨.host, 0x10010000⟩ = .refused (.reservedFieldNonzero 0x10010000) := by decide

/-- Two signals before one ACQUIRE: the block with a signal pending, in Trigger and awaiting the falling edge in Echo. -/
theorem witness_AcquireTestsAndClearsTheSignal :
    (st .trigger .awaitingRisingEdge none none none true .rising (-1)).sig = true ∧
      (st .trigger .awaitingRisingEdge none none none true .rising (-1)).phase = .trigger ∧
      (after .evUpdate (st .trigger .awaitingRisingEdge none none none true .rising (-1))).isSome = true ∧
      done.sig = true ∧ done.phase = .echo ∧ done.edge = .awaitingFallingEdge ∧ done.capFirst ≠ none ∧
      (after (.evCapture 400) done).isSome = true := by decide

theorem witness_RdDistanceRespondsTheDistance :
    (∀ op ∈ ([⟨.event, 0x01000000⟩, ⟨.host, 0x12000000⟩] : List Operation), decodesTo Instr.publishes op = false) ∧
      (∃ t, run 3 (State.started Cfg.default [⟨.event, 0x01000000⟩, ⟨.host, 0x12000000⟩]) = .next t) ∧
      (after (.rdDistance .host) done).isSome = true := ⟨by decide, ⟨_, rfl⟩, by decide⟩

theorem witness_ResetValues :
    done.element .capFirst ≠ none ∧ (stepped { done with inbox := [⟨.host, 0x10000000⟩] }).isSome = true := by decide

theorem witness_command_operations :
    State.reset.phase = .trigger ∧ done.phase = .echo ∧ done.sig = true ∧ State.reset.sig = false ∧
      done.cfg.WellFormed ∧ done.cfg = Cfg.default ∧ done.rawDuration = some 231 ∧ State.reset.rawDuration = none ∧
      (st .echo .awaitingFallingEdge (some 0) (some 24) (some 23) false .falling (-1)).rawDuration = some 23 ∧
      (st .echo .awaitingFallingEdge (some 0) (some 25) (some 24) false .falling (-1)).rawDuration = some 24 ∧
      (st .echo .awaitingFallingEdge (some 65535) (some 0) (some 0xFFFF) false .falling (-1)).rawDuration = some 0xFFFF ∧
      (st .echo .awaitingFallingEdge (some 0) (some 1) (some 0) false .falling (-1)).rawDuration = some 0 := by decide

theorem witness_read_operations :
    done.capFirst = some 100 ∧ done.capSecond = some 332 ∧ done.rawDuration = some 231 ∧
      done.distance = (st .trigger .awaitingRisingEdge none none none false .rising 9).distance ∧
      (Instr.rdCapFirst).wellFormed = true ∧ opClass .rdCapFirst = 0x2 ∧
      after .rdCapFirst done = responds done .host 100 ∧
      after .rdCapFirst State.reset = some (State.reset.takeFault (.unwrittenRead .capFirst)) := by decide

theorem witness_OnlyStartCycleReturnsToTrigger :
    done.phase = .echo ∧
      (stepped { done with inbox := [⟨.host, 0x10000000⟩] }).map State.phase = some .trigger := by decide

theorem witness_WriteCapabilitiesOfEachSide :
    opClass .evUpdate = 0x0 ∧ opClass .publishBad = 0x1 ∧ opClass (.rdDistance .reader) = 0x2 ∧
      (after .evUpdate State.reset).isSome ∧ (after .publishBad State.reset).isSome ∧
      (after (.rdDistance .reader) State.reset).isSome := by decide

theorem witness_OnlyTheTwoPublicationsWriteDistance :
    (stepped { done with inbox := [⟨.host, 0x14000000⟩] }).map State.distance = some 0xFFFFFFFF ∧ done.distance = 9 ∧
      (stepped { done with distance := 0, inbox := [⟨.host, 0x13000000⟩] }).map State.distance = some 9 ∧
      done.cfg.WellFormed ∧ done.rawDuration ≠ none := by decide

/-- Each clause of R73: an event, an accepted command, a fault, a refused word. -/
theorem witness_OneResponsePerAcceptedOperation :
    (stepped (withOps [⟨.event, 0x01000000⟩])).map State.responses = some [] ∧
    (stepped (withOps [⟨.host, 0x14000000⟩])).map State.responses = some [⟨.host, 0⟩] ∧
    (stepped (withOps [⟨.host, 0x13000000⟩])).map State.faultLog = some [.unwrittenRead .rawDuration] ∧
    (stepped (withOps [⟨.reader, 0x12000000⟩])).map State.responses = some [] ∧
    decode ⟨.reader, 0x12000000⟩ = .refused (.wrongPort 0x12000000 .reader) := by decide

theorem witness_OutputsOfEveryOperation :
    (after (.evCapture 5) State.reset).map State.out = some [.clrCaptureFlag] ∧
    (after (.evCapture 5) (st .echo .awaitingFallingEdge none none none false .rising (-1))).map State.out = some [] := by
  decide

theorem witness_MarksAndWrittenElementsLast :
    (stepped { done with faulted := true, refused := true, inbox := [⟨.host, 0x10000000⟩] }).isSome = true ∧
      done.element .rawDuration ≠ none := by decide

theorem witness_ConfigurationIsNeverWritten :
    (after .startCycle done).isSome = true ∧ run 3 (withOps [⟨.host, 0x10000000⟩]) = .next
      (State.reset.respond .host 0) := ⟨by decide, rfl⟩

theorem witness_StepsFollowTheOperationOrder :
    Interleaving [0x01000000] [0x12000000, 0x11000000] [0x20000000]
      [⟨.host, 0x12000000⟩, ⟨.event, 0x01000000⟩, ⟨.reader, 0x20000000⟩, ⟨.host, 0x11000000⟩] ∧
    ∃ t, run 2 (withOps [⟨.host, 0x12000000⟩, ⟨.event, 0x01000000⟩, ⟨.reader, 0x20000000⟩, ⟨.host, 0x11000000⟩]) =
      .next t := ⟨by decide, _, rfl⟩

theorem witness_StepKeepsTheInvariant :
    State.Inv { done with inbox := [⟨.host, 0x13000000⟩] } ∧
      (stepped { done with inbox := [⟨.host, 0x13000000⟩] }).isSome = true := by decide

theorem witness_ReachableStatesObeyTheLaws :
    ∃ s : State, s.Reachable ∧ s.edge = .awaitingFallingEdge ∧ s.rawDuration = some 231 :=
  ⟨_, ⟨Cfg.default, [⟨.event, 0x01000000⟩, ⟨.event, 0x02000064⟩, ⟨.event, 0x0200014C⟩], 3, by decide, rfl⟩,
    by decide, by decide⟩

theorem witness_DistanceHoldsUntilTheNextPublication :
    (withOps (encode (.rdDistance .host) :: ([⟨.host, 0x10000000⟩, ⟨.reader, 0x21000000⟩] ++
        encode (.rdDistance .reader) :: []))).inbox =
      encode (.rdDistance .host) :: ([⟨.host, 0x10000000⟩, ⟨.reader, 0x21000000⟩] ++ encode (.rdDistance .reader) :: []) ∧
    ∀ op ∈ ([⟨.host, 0x10000000⟩, ⟨.reader, 0x21000000⟩] : List Operation), decodesTo Instr.publishes op = false := by
  decide

theorem witness_ConvertPublishSeesTheLatestFallingEdge :
    done.phase = .echo ∧ done.edge = .awaitingFallingEdge ∧ done.capFirst = some 100 ∧
    ∀ op ∈ ([⟨.host, 0x12000000⟩, ⟨.host, 0x10000000⟩, ⟨.event, 0x01000000⟩] : List Operation),
      decodesTo Instr.isCapture op = false := by decide

theorem witness_StartCycleIsolatesTheCycle :
    ∀ op ∈ ([⟨.event, 0x02001004⟩, ⟨.host, 0x12000000⟩, ⟨.host, 0x11000000⟩] : List Operation),
      decodesTo (· == .evUpdate) op = false := by decide

/-- The publication of each kind, the start of a cycle from sleep, and the one from the middle of a cycle. -/
theorem witness_TaskPublishesOnceAtTheEndOfACycle :
    ((TaskSystem.mk .converting done).act (.proceed false)).map TaskSystem.pos = some (.sleeping true) ∧
    ((TaskSystem.mk .publishingBad done).act (.proceed true)).map TaskSystem.pos = some (.sleeping false) ∧
    ((TaskSystem.mk (.sleeping true) done).act (.proceed false)).map TaskSystem.pos = some .triggering ∧
    ((TaskSystem.mk .awaitingEcho done).act .startCycle).map TaskSystem.pos = some .triggering := by decide

/-- The task in its echo wait, the falling edge already taken. -/
def waiting : TaskSystem := ⟨.awaitingEcho, done⟩

theorem witness_task_statements :
    waiting.Inv ∧ (TaskSystem.mk .converting done).Inv ∧
      (waiting.act (.proceed false)).map TaskSystem.pos = some .converting ∧
      ((TaskSystem.mk .awaitingTriggerDone State.reset).act (.proceed true)).map TaskSystem.pos = some .publishingBad ∧
      ((TaskSystem.mk .publishingBad done).act (.proceed false)).map (·.block.distance) = some 0xFFFFFFFF :=
  ⟨⟨⟨by decide, by decide, by decide, ⟨by decide, by decide⟩⟩, by decide⟩,
    ⟨⟨by decide, by decide, by decide, ⟨by decide, by decide⟩⟩, by decide⟩, by decide, by decide, by decide⟩

/-- Observations that heed rule R256, one that does not and finds a value, and one that does not and faults. -/
theorem witness_HostMayObserveAtAnyTime :
    (AgentMove.observe (.sample .rawDuration)).heedsHazard (.sleeping true) = true ∧
    (AgentMove.observe (.sample .rawDuration)).heedsHazard .awaitingEcho = false ∧
    (waiting.act (.observe (.sample .rawDuration))).map (·.block.faulted) = some false ∧
    (waiting.act (.observe (.sample .rawDuration))).map (·.block.responses) = some [⟨.host, 231⟩] ∧
    (TaskSystem.boot.act (.observe (.sample .capFirst))).map (·.block.faulted) = some true ∧
    (TaskSystem.boot.act (.observe .distance)).map (·.block.responses) = some [⟨.host, 0xFFFFFFFF⟩] ∧
    (TaskSystem.boot.act (.observe .status)).map (·.block.responses) = some [⟨.host, 0⟩] := by decide

end Sys2Proof.Tests
end

section

namespace Sys2Proof.Machine

/-- Rule R13: `enc_s32` is inverted by the two's-complement reading on the numbers it is defined for. -/
theorem toInt_encS32 {i : Int} (hlo : -2 ^ 31 ≤ i) (hhi : i ≤ 2 ^ 31 - 1) : (encS32 i).toInt = i :=
  BitVec.toInt_ofInt_eq_self (by decide) hlo (by omega)

/-- Condition 5 of rule R11: `DMAX` is representable in DISTANCE. -/
theorem dmax_le_of_wellFormed {c : Cfg} (hc : c.WellFormed) : c.dmax ≤ 2 ^ 31 - 1 := by
  obtain ⟨-, -, -, -, hdmax⟩ := hc
  exact hdmax

/-- A converted distance survives publication, because it lies in `[0, DMAX]` and `DMAX` fits DISTANCE. -/
theorem toInt_encS32_convert {c : Cfg} (hc : c.WellFormed) (raw : Counter) :
    (encS32 (convert c raw)).toInt = convert c raw := by
  obtain ⟨hnonneg, hle⟩ := convert_bounds c raw
  have hdmax := dmax_le_of_wellFormed hc
  exact toInt_encS32 (by omega) (by omega)

/-- Settles O15: rule R11's condition 5 bounds the conversion inside the range of `enc_s32`. -/
theorem publishedPatternReadsBack : Obligations.PublishedPatternReadsBack :=
  fun _ raw hc => toInt_encS32_convert hc raw

/-- The default configuration meets the conditions of rule R11 that concern the block. -/
theorem wellFormed_default : Cfg.default.WellFormed := by decide

/-- Settles O16: the block's five conditions, and rule R11's condition 6 as the comparison `327675 > 76000`. -/
theorem defaultConfigurationIsWellFormed : Obligations.DefaultConfigurationIsWellFormed := by
  have hlhs : counterMax * Cfg.default.tickNum = 327675 := by decide
  have hrhs : 38 * 1000 * Cfg.default.tickDen = 76000 := by decide
  refine ⟨⟨wellFormed_default, ?_⟩, hlhs, hrhs⟩
  change 38 * 1000 * Cfg.default.tickDen < counterMax * Cfg.default.tickNum
  omega

end Sys2Proof.Machine

end

section

namespace Sys2Proof.Machine

/-! ## Carrying a fact over steps and runs -/

/-- What taking a delivered operation, every effect and every refusal keep, every step keeps. -/
theorem step_keeps {P : State → Prop} (hinbox : ∀ s ops, P s → P { s with inbox := ops })
    (heffect : ∀ s i t, Effect s i t → P s → P t) (hrefuse : ∀ s r, P s → P (s.takeRefusal r))
    {s t : State} (h : step s = .next t) (hs : P s) : P t := by
  rcases step_cases h with ⟨-, rfl⟩ | ⟨op, rest, -, ⟨i, -, hexec⟩ | ⟨r, -, rfl⟩⟩
  · exact hs
  · exact heffect _ i t (exec_effect hexec) (hinbox s rest hs)
  · exact hrefuse _ r (hinbox s rest hs)

/-- A run of `n + 1` steps is one step and a run of `n`. -/
theorem run_succ_inv {n : Nat} {s t : State} (h : run (n + 1) s = .next t) :
    ∃ u, step s = .next u ∧ run n u = .next t := by
  cases hs : step s with
  | next u => exact ⟨u, rfl, run_succ_of_next n hs ▸ h⟩
  | fault r => simp [run, hs] at h
  | refused r => simp [run, hs] at h

/-- What every step keeps, every run keeps. -/
theorem run_keeps {P : State → Prop} (hstep : ∀ s t, step s = .next t → P s → P t)
    {n : Nat} {s t : State} (h : run n s = .next t) (hs : P s) : P t := by
  induction n generalizing s with
  | zero => cases h; exact hs
  | succ n ih =>
    obtain ⟨u, hu, hrun⟩ := run_succ_inv h
    exact ih hrun (hstep s u hu hs)

/-! ## The configuration (rule R32) -/

theorem Effect.cfg_eq {i : Instr} {s t : State} (h : Effect s i t) : t.cfg = s.cfg := by
  cases h <;> rfl

theorem step_cfg {s t : State} (h : step s = .next t) : t.cfg = s.cfg :=
  step_keeps (P := (·.cfg = s.cfg)) (fun _ _ hs => hs) (fun _ _ _ he hs => he.cfg_eq.trans hs) (fun _ _ hs => hs) h rfl

/-- Settles O40: no effect touches the field, so neither does a step nor, by induction on its length, a run. -/
theorem configurationIsNeverWritten : Obligations.ConfigurationIsNeverWritten :=
  ⟨fun _ _ _ h => (exec_effect h).cfg_eq,
    fun _ s _ h => run_keeps (P := (·.cfg = s.cfg)) (fun _ _ hstep hs => (step_cfg hstep).trans hs) h rfl⟩

/-! ## The marks and the records beside them (rules R33, R202, R203) -/

/-- How an effect can meet the marks: it leaves them and their records alone, or it is a fault, or a refusal. -/
theorem Effect.marks_cases {i : Instr} {s t : State} (h : Effect s i t) :
    (t.faulted = s.faulted ∧ t.faultLog = s.faultLog ∧ t.refused = s.refused ∧ t.refusalLog = s.refusalLog) ∨
      (∃ e, t = s.takeFault (.unwrittenRead e)) ∨ ∃ r, t = s.takeRefusal r := by
  cases h with
  | captureFault | readCapFirstFault => exact .inr (.inl ⟨.capFirst, rfl⟩)
  | readCapSecondFault => exact .inr (.inl ⟨.capSecond, rfl⟩)
  | convertFault | readRawDurationFault => exact .inr (.inl ⟨.rawDuration, rfl⟩)
  | readDistanceRefused _ _ r => exact .inr (.inr ⟨r, rfl⟩)
  | _ => exact .inl ⟨rfl, rfl, rfl, rfl⟩

theorem State.MarksRecorded.takeFault {s : State} (h : s.MarksRecorded) (f : Fault) : (s.takeFault f).MarksRecorded := by
  obtain ⟨-, hrefused⟩ := h
  exact ⟨by simp, hrefused⟩

theorem State.MarksRecorded.takeRefusal {s : State} (h : s.MarksRecorded) (r : DecodeRefusal) :
    (s.takeRefusal r).MarksRecorded := by
  obtain ⟨hfaulted, -⟩ := h
  exact ⟨hfaulted, by simp⟩

theorem Effect.keeps_marksRecorded {i : Instr} {s t : State} (h : Effect s i t) (hs : s.MarksRecorded) :
    t.MarksRecorded := by
  rcases h.marks_cases with ⟨hf, hfl, hr, hrl⟩ | ⟨e, rfl⟩ | ⟨r, rfl⟩
  · simpa only [State.MarksRecorded, hf, hfl, hr, hrl] using hs
  · exact hs.takeFault _
  · exact hs.takeRefusal r

theorem Effect.keeps_element {i : Instr} {s t : State} (h : Effect s i t) {e : Element} (hs : s.element e ≠ none) :
    t.element e ≠ none := by
  cases h with
  | captureRising v =>
    cases e with
    | capFirst => exact Option.some_ne_none v
    | capSecond | rawDuration => exact hs
  | captureFalling v first =>
    cases e with
    | capFirst => exact hs
    | capSecond | rawDuration => exact Option.some_ne_none _
  | _ => exact hs

/-- Rules R33 and R203: `t` carries every mark that `s` carries, and its records begin with those of `s`. -/
def State.MarksLast (s t : State) : Prop :=
  (s.faulted = true → t.faulted = true) ∧ (s.refused = true → t.refused = true) ∧
    s.faultLog <+: t.faultLog ∧ s.refusalLog <+: t.refusalLog

theorem State.marksLast_of_eq {s t : State} (hf : t.faulted = s.faulted) (hfl : t.faultLog = s.faultLog)
    (hr : t.refused = s.refused) (hrl : t.refusalLog = s.refusalLog) : s.MarksLast t := by
  simp [State.MarksLast, hf, hfl, hr, hrl]

theorem State.marksLast_takeFault (s : State) (f : Fault) : s.MarksLast (s.takeFault f) :=
  ⟨fun _ => rfl, id, ⟨[f], rfl⟩, by simp⟩

theorem State.marksLast_takeRefusal (s : State) (r : DecodeRefusal) : s.MarksLast (s.takeRefusal r) :=
  ⟨id, fun _ => rfl, by simp, ⟨[r], rfl⟩⟩

theorem Effect.marksLast {i : Instr} {s t : State} (h : Effect s i t) : s.MarksLast t := by
  rcases h.marks_cases with ⟨hf, hfl, hr, hrl⟩ | ⟨e, rfl⟩ | ⟨r, rfl⟩
  · exact State.marksLast_of_eq hf hfl hr hrl
  · exact s.marksLast_takeFault _
  · exact s.marksLast_takeRefusal r

theorem step_marksLast {s t : State} (h : step s = .next t) : s.MarksLast t := by
  rcases step_cases h with ⟨-, rfl⟩ | ⟨op, rest, -, ⟨i, -, hexec⟩ | ⟨r, -, rfl⟩⟩
  · exact State.marksLast_of_eq rfl rfl rfl rfl
  · exact (exec_effect hexec).marksLast
  · exact State.marksLast_takeRefusal { s with inbox := rest } r

@[simp] theorem State.element_with_inbox (s : State) (ops : List Operation) (e : Element) :
    State.element { s with inbox := ops } e = s.element e := by cases e <;> rfl

@[simp] theorem State.takeRefusal_element (s : State) (r : DecodeRefusal) (e : Element) :
    (s.takeRefusal r).element e = s.element e := by cases e <;> rfl

theorem step_keeps_element {s t : State} (h : step s = .next t) {e : Element} (hs : s.element e ≠ none) :
    t.element e ≠ none :=
  step_keeps (P := (·.element e ≠ none)) (fun _ _ hs => by simpa using hs) (fun _ _ _ he hs => he.keeps_element hs)
    (fun _ _ hs => by simpa using hs) h hs

/-- Settles O39: a fault and a refusal only add a mark and a record, and a capture writes a value, never `⊥`. -/
theorem marksAndWrittenElementsLast : Obligations.MarksAndWrittenElementsLast := by
  intro s t h
  obtain ⟨hfaulted, hrefused, hfaults, hrefusals⟩ := step_marksLast h
  exact ⟨hfaulted, hrefused, hfaults, hrefusals, fun _ => step_keeps_element h⟩

/-! ## The invariant (rules R39, R40, R41) -/

/-- R39 and R40: the branch that awaits the falling edge has just latched CAP_FIRST, and the falling branch writes CAP_SECOND
and RAW_DURATION together. -/
theorem Effect.keeps_captureLaws {i : Instr} {s t : State} (h : Effect s i t) (hs : s.CaptureLaws) : t.CaptureLaws := by
  obtain ⟨hedge, hpair⟩ := hs
  cases h with
  | captureRising v => exact ⟨fun _ => Option.some_ne_none v, hpair⟩
  | captureFalling v first => exact ⟨hedge, by simp⟩
  | startCycle | armEcho => exact ⟨nofun, hpair⟩
  | _ => exact ⟨hedge, hpair⟩

/-- R41: the two publications write a converted distance or the sentinel. -/
theorem Effect.keeps_distanceLaw {i : Instr} {s t : State} (h : Effect s i t) (hc : s.cfg.WellFormed)
    (hs : s.DistanceLaw) : t.DistanceLaw := by
  cases h with
  | convert raw =>
    refine .inr ?_
    simpa only [toInt_encS32_convert hc raw] using convert_bounds s.cfg raw
  | publishBad => exact .inl (toInt_encS32 (by decide) (by decide))
  | _ => exact hs

theorem Effect.keeps_inv {i : Instr} {s t : State} (h : Effect s i t) (hs : s.Inv) : t.Inv := by
  obtain ⟨hcfg, hcapture, hdistance, hmarks⟩ := hs
  exact ⟨h.cfg_eq ▸ hcfg, h.keeps_captureLaws hcapture, h.keeps_distanceLaw hcfg hdistance,
    h.keeps_marksRecorded hmarks⟩

theorem State.Inv.takeRefusal {s : State} (h : s.Inv) (r : DecodeRefusal) : (s.takeRefusal r).Inv := by
  obtain ⟨hcfg, hcapture, hdistance, hmarks⟩ := h
  exact ⟨hcfg, hcapture, hdistance, hmarks.takeRefusal r⟩

/-- Settles O42: every effect keeps each part of the invariant, and a refusal touches only a mark and its record. -/
theorem stepKeepsTheInvariant : Obligations.StepKeepsTheInvariant :=
  fun _ _ hs h => step_keeps (P := State.Inv) (fun _ _ hs => hs) (fun _ _ _ he => he.keeps_inv)
    (fun _ r hs => hs.takeRefusal r) h hs

/-! ## The reachable states -/

theorem State.started_inv {c : Cfg} (hc : c.WellFormed) (ops : List Operation) : (State.started c ops).Inv :=
  ⟨hc, ⟨nofun, Iff.rfl⟩, .inl (toInt_encS32 (by decide) (by decide)), rfl, rfl⟩

theorem State.Reachable.inv {s : State} (h : s.Reachable) : s.Inv := by
  obtain ⟨c, ops, n, hc, hrun⟩ := h
  exact run_keeps (P := State.Inv) (fun s t hstep hs => stepKeepsTheInvariant s t hs hstep) hrun
    (State.started_inv hc ops)

/-- Rule R39's consequence: the falling branch finds CAP_FIRST written, so EV_CAPTURE does not fault. -/
theorem exec_evCapture_faulted {s t : State} {v : Counter} (hs : s.CaptureLaws) (h : exec (.evCapture v) s = .next t) :
    t.faulted = s.faulted := by
  obtain ⟨hedge, -⟩ := hs
  cases exec_effect h with
  | captureFault _ _ he hf => exact absurd hf (hedge he)
  | _ => rfl

/-- Settles O44: the invariant holds at the start of a run and every step keeps it. -/
theorem reachableStatesObeyTheLaws : Obligations.ReachableStatesObeyTheLaws := by
  refine ⟨fun s hreach => ?_, by decide⟩
  obtain ⟨-, hcapture, hdistance, -⟩ := hreach.inv
  obtain ⟨hedge, hpair⟩ := hcapture
  exact ⟨hedge, fun v t => exec_evCapture_faulted ⟨hedge, hpair⟩, hpair, hdistance⟩

/-! ## The signal (rules R27 and R110) -/

/-- The two effects that set the signal slot. -/
theorem Effect.raises_sig {i : Instr} {s t : State} (h : Effect s i t) (hs : s.sig = false) (ht : t.sig = true) :
    (i = .evUpdate ∧ s.phase = .trigger) ∨
      ∃ v, i = .evCapture v ∧ s.phase = .echo ∧ s.edge = .awaitingFallingEdge ∧ t.capSecond = some v := by
  cases h with
  | updateTrigger hp => exact .inl ⟨rfl, hp⟩
  | captureFalling v first hp he => exact .inr ⟨v, rfl, hp, he, rfl⟩
  | startCycle | acquireTaken => exact absurd ht Bool.false_ne_true
  | _ => exact absurd (hs.symm.trans ht) Bool.false_ne_true

/-- Settles O19: an idle step and a refusal leave the slot alone, and only two effects set it. -/
theorem signalIsRaisedOnlyByTheTwoBranches : Obligations.SignalIsRaisedOnlyByTheTwoBranches := by
  intro s t h hs ht
  rcases step_cases h with ⟨-, rfl⟩ | ⟨op, rest, hi, ⟨i, hd, hexec⟩ | ⟨r, -, rfl⟩⟩
  · exact absurd (hs.symm.trans ht) Bool.false_ne_true
  · refine ⟨op, rest, hi, ?_⟩
    rcases (exec_effect hexec).raises_sig hs ht with ⟨rfl, hp⟩ | ⟨v, rfl, hp, he, hv⟩
    · exact .inl ⟨hd, hp⟩
    · exact .inr ⟨v, hd, hp, he, hv⟩
  · exact absurd (hs.symm.trans ht) Bool.false_ne_true

/-! ## The fault (rules R31, R202, R203) -/

theorem exec_evCapture_falling {s : State} (hp : s.phase = .echo) (he : s.edge = .awaitingFallingEdge) (v : Counter) :
    exec (.evCapture v) s = .next (captureFalling v s) := by
  simp [exec, execEvCapture, hp, he]

theorem next_readElement_of_none {s : State} {e : Element} (h : s.element e = none) (k : Counter → State) :
    (.next (s.readElement e k) : Host.Outcome State Fault Refusal) = .next (s.takeFault (.unwrittenRead e)) :=
  congrArg _ (State.readElement_of_none h k)

/-- Settles O20: each of the five operations is a read of its element, EV_CAPTURE in its falling branch. -/
theorem unwrittenReadTakesTheFault : Obligations.UnwrittenReadTakesTheFault := fun _ =>
  ⟨fun h => next_readElement_of_none (e := .capFirst) h _,
    fun h => next_readElement_of_none (e := .capSecond) h _,
    fun h => next_readElement_of_none (e := .rawDuration) h _,
    fun h => next_readElement_of_none (e := .rawDuration) h _,
    fun v hp he h => (exec_evCapture_falling hp he v).trans (next_readElement_of_none (e := .capFirst) h _)⟩

/-! ## The capabilities of each side (rule R38) -/

/-- Class 0x0 of rule R74. -/
theorem eq_of_opClass_event {i : Instr} (h : opClass i = 0x0) : i = .evUpdate ∨ ∃ v, i = .evCapture v := by
  cases i with
  | evUpdate => exact .inl rfl
  | evCapture v => exact .inr ⟨v, rfl⟩
  | _ => simp [opClass, Instr.opcode, Opcode.code] at h

/-- Class 0x1 of rule R74. -/
theorem eq_of_opClass_command {i : Instr} (h : opClass i = 0x1) :
    i = .startCycle ∨ i = .armEcho ∨ i = .acquire ∨ i = .convertPublish ∨ i = .publishBad := by
  cases i with
  | startCycle | armEcho | acquire | convertPublish | publishBad => simp
  | _ => simp [opClass, Instr.opcode, Opcode.code] at h

/-- Class 0x2 of rule R74. -/
theorem eq_of_opClass_read {i : Instr} (h : opClass i = 0x2) :
    (∃ port, i = .rdDistance port) ∨ i = .rdStatus ∨ i = .rdCapFirst ∨ i = .rdCapSecond ∨ i = .rdRawDuration := by
  cases i with
  | rdDistance port => exact .inl ⟨port, rfl⟩
  | rdStatus | rdCapFirst | rdCapSecond | rdRawDuration => simp
  | _ => simp [opClass, Instr.opcode, Opcode.code] at h

/-- R38, the event side: PHASE to Echo, EDGE onward, the signal set, CAP_POL to falling, and DISTANCE not at all. -/
theorem Effect.event_writes {i : Instr} {s t : State} (h : Effect s i t) (hc : opClass i = 0x0) :
    t.distance = s.distance ∧ (t.phase = s.phase ∨ t.phase = .echo) ∧
      (t.edge = s.edge ∨ t.edge = .awaitingFallingEdge) ∧ (t.sig = s.sig ∨ t.sig = true) ∧
      (t.capPol = s.capPol ∨ t.capPol = .falling) := by
  obtain rfl | ⟨v, rfl⟩ := eq_of_opClass_event hc
  · cases h <;> simp
  · cases h <;> simp

/-- R38, the host side: PHASE to Trigger, EDGE back, the signal cleared, CAP_POL to rising, and no capture element. -/
theorem Effect.command_writes {i : Instr} {s t : State} (h : Effect s i t) (hc : opClass i = 0x1) :
    t.capFirst = s.capFirst ∧ t.capSecond = s.capSecond ∧ t.rawDuration = s.rawDuration ∧
      (t.phase = s.phase ∨ t.phase = .trigger) ∧ (t.edge = s.edge ∨ t.edge = .awaitingRisingEdge) ∧
      (t.sig = s.sig ∨ t.sig = false) ∧ (t.capPol = s.capPol ∨ t.capPol = .rising) := by
  obtain rfl | rfl | rfl | rfl | rfl := eq_of_opClass_command hc
  all_goals cases h <;> simp

/-- R38, the reads: nothing. -/
theorem Effect.read_writes_nothing {i : Instr} {s t : State} (h : Effect s i t) (hc : opClass i = 0x2) :
    t.phase = s.phase ∧ t.edge = s.edge ∧ t.capFirst = s.capFirst ∧ t.capSecond = s.capSecond ∧
      t.rawDuration = s.rawDuration ∧ t.sig = s.sig ∧ t.capPol = s.capPol ∧ t.distance = s.distance := by
  obtain ⟨port, rfl⟩ | rfl | rfl | rfl | rfl := eq_of_opClass_read hc
  all_goals cases h <;> exact ⟨rfl, rfl, rfl, rfl, rfl, rfl, rfl, rfl⟩

/-- Settles O35: one list of the rule for each class of operations. -/
theorem writeCapabilitiesOfEachSide : Obligations.WriteCapabilitiesOfEachSide :=
  fun _ _ _ _ h => ⟨(exec_effect h).event_writes, (exec_effect h).command_writes, (exec_effect h).read_writes_nothing⟩

end Sys2Proof.Machine

end

section

namespace Sys2Proof

/-! ## The byte link (rules R51, R52) -/

/-- The number four bytes stand for fits a word. -/
theorem opwOfBytes_number_lt (b0 b1 b2 b3 : Byte) :
    b0.toNat + 2 ^ 8 * b1.toNat + 2 ^ 16 * b2.toNat + 2 ^ 24 * b3.toNat < 2 ^ 32 := by
  have h0 := b0.isLt
  have h1 := b1.isLt
  have h2 := b2.isLt
  have h3 := b3.isLt
  omega

/-- The four bytes of a word, weighed by their places, make up its number. -/
theorem toNat_eq_sum_bytes (w : Word) :
    (w.extractLsb' 0 8).toNat + 2 ^ 8 * (w.extractLsb' 8 8).toNat + 2 ^ 16 * (w.extractLsb' 16 8).toNat +
      2 ^ 24 * (w.extractLsb' 24 8).toNat = w.toNat := by
  have hw := w.isLt
  simp only [BitVec.extractLsb'_toNat, Nat.shiftRight_eq_div_pow]
  omega

theorem opwOfBytes_opwToBytes (w : Word) (rest : List Byte) : opwOfBytes (opwToBytes w ++ rest) = some (w, rest) := by
  have hword := congrArg (BitVec.ofNat 32) (toNat_eq_sum_bytes w)
  rw [BitVec.ofNat_toNat, BitVec.setWidth_eq] at hword
  exact congrArg (fun u => some (u, rest)) hword

theorem opwOfBytes_of_length_lt {bytes : List Byte} (h : bytes.length < 4) : opwOfBytes bytes = none := by
  match bytes, h with
  | [], _ | [_], _ | [_, _], _ | [_, _, _], _ => rfl

theorem decodeBytes_of_length_lt (port : Port) {bytes : List Byte} (h : bytes.length < 4) :
    decodeBytes port bytes = none := by
  simp [decodeBytes, opwOfBytes_of_length_lt h]

/-- Settles O10: four bytes make up a number below `2 ^ 32`, and it is the word's own where they are the word's bytes. -/
theorem linkCarriesWordsLittleEndian : Obligations.LinkCarriesWordsLittleEndian :=
  ⟨fun b0 b1 b2 b3 _ => ⟨_, rfl, (BitVec.toNat_ofNat _ _).trans (Nat.mod_eq_of_lt (opwOfBytes_number_lt b0 b1 b2 b3))⟩,
    opwOfBytes_opwToBytes, fun port _ => decodeBytes_of_length_lt port⟩

/-! ## Reading back an encoded operation (rules R74, R79) -/

theorem decode_encode {i : Instr} (h : i.wellFormed = true) : decode (encode i) = .accepted i := by
  have hport : i.port ∈ i.opcode.ports := by
    cases i with
    | rdDistance port => simpa [Instr.port, Instr.opcode, Opcode.ports, Instr.wellFormed] using h
    | _ => exact List.mem_singleton_self _
  have harg : ¬(i.opcode ≠ .evCapture ∧ i.arg ≠ 0) := by
    cases i with
    | evCapture v => exact fun hne => hne.left rfl
    | _ => exact fun hne => hne.right rfl
  have hinstr : Instr.ofOpcode i.opcode i.arg i.port = i := by cases i <;> rfl
  simp only [decode, encode, opcField_opwOf, rsvField_opwOf, argField_opwOf, Opcode.ofCode_code, ne_eq,
    not_true_eq_false, if_false]
  rw [if_neg harg, if_neg (not_not_intro hport), hinstr]

theorem decodesTo_of_accepted {op : Operation} {i : Instr} (h : decode op = .accepted i) (p : Instr → Bool) :
    decodesTo p op = p i := by
  simp [decodesTo, h]

end Sys2Proof

namespace Sys2Proof.Machine

/-! ## Steps along the operation order (rule R56) -/

/-- Settles O1: the step takes the next operation off the list, and the decoder's verdict selects `exec`. -/
theorem stepPerformsTheDecodedOperation : Obligations.StepPerformsTheDecodedOperation :=
  fun _ _ _ _ hinbox hdecode => (step_cons hinbox).trans (perform_ok hdecode _)

theorem step_encode {s : State} {i : Instr} {rest : List Operation} (hw : i.wellFormed = true)
    (hi : s.inbox = encode i :: rest) : step s = exec i { s with inbox := rest } :=
  stepPerformsTheDecodedOperation s _ rest i hi (decode_encode hw)

/-- Every meaning answers a next state (rules R100, R129, R159). -/
theorem exec_total (i : Instr) (s : State) : ∃ t, exec i s = .next t := by
  cases i <;> exact ⟨_, rfl⟩

theorem perform_total (op : Operation) (s : State) : ∃ t, perform op s = .next t := by
  cases hd : decode op with
  | accepted i => exact perform_ok hd s ▸ exec_total i s
  | refused r => exact ⟨_, perform_error hd s⟩

theorem step_total (s : State) : ∃ t, step s = .next t := by
  cases hi : s.inbox with
  | nil => exact ⟨s, step_nil hi⟩
  | cons op rest => exact step_cons hi ▸ perform_total op _

theorem Effect.inbox_eq {i : Instr} {s t : State} (h : Effect s i t) : t.inbox = s.inbox := by
  cases h <;> rfl

/-- A step takes one operation off the list of delivered ones, if there is one. -/
theorem step_inbox {s t : State} (h : step s = .next t) : t.inbox = s.inbox.tail := by
  rcases step_cases h with ⟨hi, rfl⟩ | ⟨op, rest, hi, ⟨i, -, hexec⟩ | ⟨r, -, rfl⟩⟩
  · rw [hi]; rfl
  · rw [hi, (exec_effect hexec).inbox_eq]; rfl
  · rw [hi]; rfl

theorem run_inbox {n : Nat} {s t : State} (h : run n s = .next t) : t.inbox = s.inbox.drop n := by
  induction n generalizing s with
  | zero => cases h; rfl
  | succ n ih =>
    obtain ⟨u, hu, hrun⟩ := run_succ_inv h
    rw [ih hrun, step_inbox hu, List.drop_tail]

/-- A suffix of an interleaving is an interleaving of suffixes. -/
theorem Interleaving.of_suffix {events hosts readers : List Word} {ops ops' : List Operation}
    (h : Interleaving events hosts readers ops) (hsuffix : ops' <:+ ops) :
    ∃ events' hosts' readers', Interleaving events' hosts' readers' ops' ∧ events' <:+ events ∧ hosts' <:+ hosts ∧
      readers' <:+ readers := by
  obtain ⟨rfl, rfl, rfl⟩ := h
  exact ⟨_, _, _, ⟨rfl, rfl, rfl⟩, (hsuffix.filter _).map _, (hsuffix.filter _).map _, (hsuffix.filter _).map _⟩

/-- Settles O41: each step drops one delivered operation, and what is left of the list is a suffix of it. -/
theorem stepsFollowTheOperationOrder : Obligations.StepsFollowTheOperationOrder := by
  intro n s t h
  have hdrop := run_inbox h
  exact ⟨hdrop, fun _ _ _ hinter => hinter.of_suffix (hdrop ▸ List.drop_suffix n s.inbox)⟩

/-! ## Runs over operations that leave a fact alone -/

theorem run_add_of_next {m : Nat} {s t : State} (n : Nat) (h : run m s = .next t) : run (m + n) s = run n t := by
  induction m generalizing s with
  | zero => cases h; rw [Nat.zero_add]
  | succ m ih =>
    obtain ⟨u, hu, hrun⟩ := run_succ_inv h
    rw [Nat.add_right_comm, run_succ_of_next _ hu, ih hrun]

/-- A first step, a run, and a last step are one run. -/
theorem run_step_run_step {n : Nat} {s u v t : State} (hfirst : step s = .next u) (hrun : run n u = .next v)
    (hlast : step v = .next t) : run (n + 2) s = .next t :=
  calc run (n + 2) s = run (n + 1) u := run_succ_of_next (n + 1) hfirst
    _ = run 1 v := run_add_of_next 1 hrun
    _ = .next t := run_succ_of_next 0 hlast

/-- Nothing the block does, but for the operations of which `p` holds, makes `P` false. -/
structure KeptUnless (p : Instr → Bool) (P : State → Prop) : Prop where
  inbox : ∀ s ops, P s → P { s with inbox := ops }
  effect : ∀ s i t, Effect s i t → p i = false → P s → P t
  refusal : ∀ s r, P s → P (s.takeRefusal r)

theorem KeptUnless.step {p : Instr → Bool} {P : State → Prop} (hkept : KeptUnless p P) {s t : State} {op : Operation}
    {rest : List Operation} (h : step s = .next t) (hi : s.inbox = op :: rest) (hop : decodesTo p op = false)
    (hs : P s) : P t := by
  rw [step_cons hi] at h
  cases hd : decode op with
  | accepted i =>
    rw [perform_ok hd] at h
    rw [decodesTo_of_accepted hd] at hop
    exact hkept.effect _ i t (exec_effect h) hop (hkept.inbox s rest hs)
  | refused r =>
    rw [perform_error hd] at h
    cases h
    exact hkept.refusal _ r (hkept.inbox s rest hs)

/-- Performing operations of which `p` does not hold keeps `P` and leaves the operations after them. -/
theorem KeptUnless.run {p : Instr → Bool} {P : State → Prop} (hkept : KeptUnless p P) {s : State}
    {between rest : List Operation} (hi : s.inbox = between ++ rest)
    (hbetween : ∀ op ∈ between, decodesTo p op = false) (hs : P s) :
    ∃ t, run between.length s = .next t ∧ t.inbox = rest ∧ P t := by
  induction between generalizing s with
  | nil => exact ⟨s, rfl, hi, hs⟩
  | cons op ops ih =>
    obtain ⟨hop, hops⟩ := List.forall_mem_cons.mp hbetween
    obtain ⟨u, hu⟩ := step_total s
    have hui : u.inbox = ops ++ rest := by rw [step_inbox hu, hi]; rfl
    obtain ⟨t, hrun, ht⟩ := ih hui hops (hkept.step hu hi hop hs)
    exact ⟨t, (run_succ_of_next _ hu).trans hrun, ht⟩

/-! ## DISTANCE between two reads (rules R62, R165) -/

theorem step_rdDistance {s : State} {p : Port} {rest : List Operation} (hp : p = .host ∨ p = .reader)
    (hi : s.inbox = encode (.rdDistance p) :: rest) :
    step s = .next (State.respond { s with inbox := rest } p s.distance) := by
  rcases hp with rfl | rfl <;> exact step_encode rfl hi

/-- Rule R146: only the two publications write DISTANCE. -/
theorem Effect.distance_eq {i : Instr} {s t : State} (h : Effect s i t) (hi : i.publishes = false) :
    t.distance = s.distance := by
  cases h with
  | convert | publishBad => exact absurd hi (by decide)
  | _ => rfl

theorem Effect.responses_prefix {i : Instr} {s t : State} (h : Effect s i t) : s.responses <+: t.responses := by
  cases h with
  | updateTrigger | updateEcho | captureTrigger | captureRising | captureFalling | captureFault | convertFault
  | readDistanceRefused | readCapFirstFault | readCapSecondFault | readRawDurationFault => exact List.prefix_rfl
  | _ => exact List.prefix_append _ _

/-- `t` holds the DISTANCE of `s` and has given the responses of `s`, and perhaps others after them. -/
def State.DistanceHeld (s t : State) : Prop := t.distance = s.distance ∧ s.responses <+: t.responses

theorem State.distanceHeld_keptUnless_publishes (s : State) : KeptUnless Instr.publishes s.DistanceHeld where
  inbox _ _ hs := hs
  effect _ _ _ h hi := fun ⟨hdistance, hresponses⟩ =>
    ⟨(h.distance_eq hi).trans hdistance, hresponses.trans h.responses_prefix⟩
  refusal _ _ hs := hs

/-- Settles O45: what comes between the reads keeps DISTANCE, and responses are only added. -/
theorem distanceHoldsUntilTheNextPublication : Obligations.DistanceHoldsUntilTheNextPublication := by
  intro s p q between rest hp hq hi hbetween
  have hfirst := step_rdDistance hp hi
  have hui := step_inbox hfirst
  rw [hi, List.tail_cons] at hui
  obtain ⟨v, hrun, hvi, hdistance, others, hothers⟩ :=
    (State.distanceHeld_keptUnless_publishes _).run hui hbetween ⟨rfl, List.prefix_rfl⟩
  rw [State.respond_distance] at hdistance
  refine ⟨_, others, run_step_run_step hfirst hrun (step_rdDistance hq hvi), hdistance, rfl, ?_⟩
  simp [hdistance, ← hothers]

/-! ## The latest falling edge (rules R57, R107, R140) -/

/-- Rule R107: with CAP_FIRST latched, EV_CAPTURE's falling branch writes the pair CAP_SECOND and RAW_DURATION. -/
theorem step_evCapture_falling {s : State} {first v : Counter} {rest : List Operation} (hp : s.phase = .echo)
    (he : s.edge = .awaitingFallingEdge) (hf : s.capFirst = some first) (hi : s.inbox = encode (.evCapture v) :: rest) :
    step s = .next (State.emit (State.raiseSignal { s with
      inbox := rest, capSecond := some v, rawDuration := some (duration s.cfg first v) }) .clrCaptureFlag) :=
  calc step s = exec (.evCapture v) { s with inbox := rest } := step_encode rfl hi
    _ = .next (captureFalling v { s with inbox := rest }) :=
      exec_evCapture_falling (s := { s with inbox := rest }) hp he v
    _ = _ := congrArg _ (State.readElement_of_some (s := { s with inbox := rest }) (e := .capFirst) hf _)

/-- Rule R140: with RAW_DURATION written, CONVERT_PUBLISH publishes its conversion. -/
theorem exec_convertPublish_of_some {s : State} {raw : Counter} (h : s.rawDuration = some raw) :
    exec .convertPublish s = .next (State.respond { s with distance := encS32 (convert s.cfg raw) } .host 0) :=
  congrArg _ (State.readElement_of_some (e := .rawDuration) h _)

/-- `t` holds the measurement of `s`: its captured falling edge, its duration, and the configuration it was taken in. -/
def State.MeasurementHeld (s t : State) : Prop :=
  t.cfg = s.cfg ∧ t.capSecond = s.capSecond ∧ t.rawDuration = s.rawDuration

/-- No operation but EV_CAPTURE writes CAP_SECOND or RAW_DURATION. -/
theorem Effect.measurementHeld {i : Instr} {s t : State} (h : Effect s i t) (hi : i.isCapture = false) :
    s.MeasurementHeld t := by
  cases h with
  | captureFalling => exact absurd hi (by simp [Instr.isCapture])
  | _ => exact ⟨rfl, rfl, rfl⟩

theorem State.measurementHeld_keptUnless_isCapture (s : State) : KeptUnless Instr.isCapture s.MeasurementHeld where
  inbox _ _ hs := hs
  effect _ _ _ h hi := fun ⟨hcfg, hsecond, hraw⟩ => by
    obtain ⟨hcfg', hsecond', hraw'⟩ := h.measurementHeld hi
    exact ⟨hcfg'.trans hcfg, hsecond'.trans hsecond, hraw'.trans hraw⟩
  refusal _ _ hs := hs

/-- Settles O46: the falling branch latches the measurement, what comes between keeps it, and it is what is converted. -/
theorem convertPublishSeesTheLatestFallingEdge : Obligations.ConvertPublishSeesTheLatestFallingEdge := by
  intro s first v between hphase hedge hfirst hi hbetween
  have hcapture := step_evCapture_falling hphase hedge hfirst hi
  have hui := step_inbox hcapture
  rw [hi, List.tail_cons] at hui
  obtain ⟨u, hrun, hlast, hcfg, hsecond, hraw⟩ :=
    (State.measurementHeld_keptUnless_isCapture _).run hui hbetween ⟨rfl, rfl, rfl⟩
  have hconvert := (step_encode (i := .convertPublish) rfl hlast).trans (exec_convertPublish_of_some hraw)
  refine ⟨_, run_step_run_step hcapture hrun hconvert, ?_, hsecond, hraw⟩
  exact congrArg (fun c => encS32 (convert c (duration s.cfg first v))) hcfg

end Sys2Proof.Machine

end

section

namespace Sys2Proof

/-! ## The rows of the opcode map (rules R76, R78, R81) -/

theorem Opcode.mem_all (o : Opcode) : o ∈ Opcode.all := by
  cases o <;> decide

theorem Opcode.code_injective : Function.Injective Opcode.code := fun o o' h =>
  Option.some.inj (by rw [← Opcode.ofCode_code o, h, Opcode.ofCode_code])

/-- Rule R81: a byte is reserved where no row of rule R76 has it as its OPC. -/
theorem Opcode.ofCode_eq_none_iff (b : BitVec 8) : Opcode.ofCode b = none ↔ b ∉ Opcode.all.map Opcode.code := by
  simp [Opcode.ofCode]

theorem Opcode.event_mem_ports_iff (o : Opcode) : .event ∈ o.ports ↔ o.code.extractLsb' 4 4 = 0x0 := by
  cases o <;> decide

theorem Opcode.host_mem_ports_iff (o : Opcode) :
    .host ∈ o.ports ↔ o.code.extractLsb' 4 4 = 0x1 ∨ o.code.extractLsb' 4 4 = 0x2 := by
  cases o <;> decide

theorem Opcode.reader_mem_ports_iff (o : Opcode) : .reader ∈ o.ports ↔ o = .rdDistance := by
  cases o <;> decide

/-- The ports of a row, written by its OPC. -/
theorem Opcode.ports_eq_ite (o : Opcode) :
    (if o.code = 0x01 ∨ o.code = 0x02 then [Port.event] else if o.code = 0x20 then [.host, .reader] else [.host]) =
      o.ports := by
  cases o <;> rfl

/-- The match value is the row's word with a zero operand. -/
theorem Opcode.matchWord_eq_opwOf (o : Opcode) : o.matchWord = opwOf o.code 0 := by
  simp [Opcode.matchWord, opwOf]

/-- A row without an operand fixes its whole word. -/
theorem Opcode.maskWord_of_ne_evCapture {o : Opcode} (h : o ≠ .evCapture) : o.maskWord = BitVec.allOnes 32 := by
  cases o with
  | evCapture => exact absurd rfl h
  | _ => rfl

theorem opcField_and (v w : Word) : opcField (v &&& w) = opcField v &&& opcField w := BitVec.extractLsb'_and

theorem rsvField_and (v w : Word) : rsvField (v &&& w) = rsvField v &&& rsvField w := BitVec.extractLsb'_and

theorem Opcode.opcField_maskWord (o : Opcode) : opcField o.maskWord = BitVec.allOnes 8 := by
  cases o <;> decide

theorem Opcode.rsvField_maskWord (o : Opcode) : rsvField o.maskWord = BitVec.allOnes 8 := by
  cases o <;> decide

/-- A row's match and mask select the words with its OPC, a zero RSV and, but for EV_CAPTURE, a zero ARG. -/
theorem Opcode.and_maskWord_eq_matchWord_iff (o : Opcode) (w : Word) :
    w &&& o.maskWord = o.matchWord ↔ opcField w = o.code ∧ rsvField w = 0 ∧ (o = .evCapture ∨ argField w = 0) := by
  rw [Opcode.matchWord_eq_opwOf]
  constructor
  · intro h
    refine ⟨?_, ?_, ?_⟩
    · have hopc := congrArg opcField h
      rwa [opcField_opwOf, opcField_and, o.opcField_maskWord, BitVec.and_allOnes] at hopc
    · have hrsv := congrArg rsvField h
      rwa [rsvField_opwOf, rsvField_and, o.rsvField_maskWord, BitVec.and_allOnes] at hrsv
    · by_cases ho : o = .evCapture
      · exact .inl ho
      · rw [Opcode.maskWord_of_ne_evCapture ho, BitVec.and_allOnes] at h
        exact .inr (by rw [h, argField_opwOf])
  · rintro ⟨hopc, hrsv, harg⟩
    rw [← opwOf_fields hrsv, hopc]
    by_cases ho : o = .evCapture
    · subst ho
      obtain ⟨-, -, -, hmask⟩ := Laws.EncodedFields.evCapture (argField w)
      exact hmask.trans (Opcode.matchWord_eq_opwOf _)
    · rw [harg.resolve_left ho, Opcode.maskWord_of_ne_evCapture ho, BitVec.and_allOnes]

/-! ## The operation an opcode names -/

@[simp] theorem Instr.opcode_ofOpcode (o : Opcode) (arg : Counter) (port : Port) :
    (Instr.ofOpcode o arg port).opcode = o := by
  cases o <;> rfl

theorem Instr.arg_ofOpcode {o : Opcode} {arg : Counter} (h : o = .evCapture ∨ arg = 0) (port : Port) :
    (Instr.ofOpcode o arg port).arg = arg := by
  rcases h with rfl | rfl
  · rfl
  · cases o <;> rfl

theorem Instr.port_ofOpcode {o : Opcode} {port : Port} (h : port ∈ o.ports) (arg : Counter) :
    (Instr.ofOpcode o arg port).port = port := by
  cases o with
  | rdDistance => rfl
  | _ => exact (List.mem_singleton.mp h).symm

theorem Instr.opcode_eq_evCapture_or_arg_eq_zero (i : Instr) : i.opcode = .evCapture ∨ i.arg = 0 := by
  cases i with
  | evCapture v => exact .inl rfl
  | _ => exact .inr rfl

theorem Instr.eq_rdDistance_port {i : Instr} (h : i.opcode = .rdDistance) : i = .rdDistance i.port := by
  cases i with
  | rdDistance port => rfl
  | _ => cases h

/-- A term of `Instr` is well formed where its row lists the port it carries (rule R78). -/
theorem Instr.wellFormed_iff_port_mem (i : Instr) : i.wellFormed = true ↔ i.port ∈ i.opcode.ports := by
  cases i with
  | rdDistance port => simp [Instr.port, Instr.opcode, Opcode.ports, Instr.wellFormed]
  | _ => exact iff_of_true rfl (List.mem_singleton_self _)

/-! ## What the decoder accepts (rules R74 to R79) -/

/-- A word built from an OPC of the map and an operand its row admits is refused, if at all, for its port. -/
theorem decode_opwOf {o : Opcode} {arg : Counter} (h : o = .evCapture ∨ arg = 0) (port : Port) :
    decode ⟨port, opwOf o.code arg⟩ =
      if port ∈ o.ports then .accepted (Instr.ofOpcode o arg port)
      else .refused (.wrongPort (opwOf o.code arg) port) := by
  have harg : ¬(o ≠ .evCapture ∧ arg ≠ 0) := fun ⟨ho, ha⟩ => h.elim ho ha
  simp only [decode, opcField_opwOf, Opcode.ofCode_code, rsvField_opwOf, argField_opwOf, ne_eq, not_true_eq_false,
    if_false]
  rw [if_neg harg, ite_not]

theorem decode_opwOf_of_mem {o : Opcode} {arg : Counter} {port : Port} (h : o = .evCapture ∨ arg = 0)
    (hport : port ∈ o.ports) : decode ⟨port, opwOf o.code arg⟩ = .accepted (Instr.ofOpcode o arg port) :=
  (decode_opwOf h port).trans (if_pos hport)

theorem decode_opwOf_of_not_mem {o : Opcode} {arg : Counter} {port : Port} (h : o = .evCapture ∨ arg = 0)
    (hport : port ∉ o.ports) :
    decode ⟨port, opwOf o.code arg⟩ = .refused (.wrongPort (opwOf o.code arg) port) :=
  (decode_opwOf h port).trans (if_neg hport)

/-- An accepted operation came on a port of its row, with its row's OPC, a zero RSV and an operand its row admits. -/
theorem decode_accepted_inv {op : Operation} {i : Instr} (h : decode op = .accepted i) :
    ∃ o arg, (o = .evCapture ∨ arg = 0) ∧ op.port ∈ o.ports ∧ op = ⟨op.port, opwOf o.code arg⟩ ∧
      i = Instr.ofOpcode o arg op.port := by
  rcases decode_cases op with ⟨-, hd⟩ | ⟨o, ho, ⟨-, hd⟩ | ⟨-, -, -, hd⟩ | ⟨-, -, -, hd⟩ | ⟨hrsv, harg, hport, hd⟩⟩ <;>
    cases hd.symm.trans h
  have hword : op.word = opwOf o.code (argField op.word) := by
    rw [Opcode.code_of_ofCode ho, opwOf_fields hrsv]
  exact ⟨o, argField op.word, harg, hport, congrArg (Operation.mk op.port) hword, rfl⟩

/-- The decoder accepts no operation but the encoding of the instruction it reads. -/
theorem encode_of_decode {op : Operation} {i : Instr} (h : decode op = .accepted i) :
    i.wellFormed = true ∧ encode i = op := by
  obtain ⟨o, arg, harg, hport, hop, rfl⟩ := decode_accepted_inv h
  constructor
  · rwa [Instr.wellFormed_iff_port_mem, Instr.port_ofOpcode hport, Instr.opcode_ofOpcode]
  · rw [encode, Instr.port_ofOpcode hport, Instr.opcode_ofOpcode, Instr.arg_ofOpcode harg]
    exact hop.symm

theorem port_of_decode {op : Operation} {i : Instr} (h : decode op = .accepted i) : op.port = i.port := by
  obtain ⟨-, rfl⟩ := encode_of_decode h
  rfl

theorem port_mem_of_decode {op : Operation} {i : Instr} (h : decode op = .accepted i) : op.port ∈ i.opcode.ports := by
  rw [port_of_decode h, ← Instr.wellFormed_iff_port_mem]
  exact (encode_of_decode h).left

/-- Rule R76: the words accepted as a row's mnemonic are those its match and mask select, on the row's ports. -/
theorem decode_accepted_opcode_iff (port : Port) (w : Word) (o : Opcode) :
    (∃ i, decode ⟨port, w⟩ = .accepted i ∧ i.opcode = o) ↔ w &&& o.maskWord = o.matchWord ∧ port ∈ o.ports := by
  rw [Opcode.and_maskWord_eq_matchWord_iff]
  constructor
  · rintro ⟨i, hd, rfl⟩
    obtain ⟨-, henc⟩ := encode_of_decode hd
    obtain rfl : opwOf i.opcode.code i.arg = w := congrArg Operation.word henc
    exact ⟨⟨opcField_opwOf _ _, rsvField_opwOf _ _, by simpa using i.opcode_eq_evCapture_or_arg_eq_zero⟩,
      port_mem_of_decode hd⟩
  · rintro ⟨⟨hopc, hrsv, harg⟩, hport⟩
    rw [← opwOf_fields hrsv, hopc]
    exact ⟨_, decode_opwOf_of_mem harg hport, Instr.opcode_ofOpcode _ _ _⟩

/-- Rule R78: the word of an instruction is accepted on the ports of its row and on no other. -/
theorem decode_encode_word_accepted_iff (p : Port) (i : Instr) :
    (∃ j, decode ⟨p, (encode i).word⟩ = .accepted j) ↔ p ∈ i.opcode.ports := by
  have hd := decode_opwOf i.opcode_eq_evCapture_or_arg_eq_zero p
  by_cases hp : p ∈ i.opcode.ports
  · exact iff_of_true ⟨_, hd.trans (if_pos hp)⟩ hp
  · refine iff_of_false (fun ⟨j, hj⟩ => ?_) hp
    cases (hd.trans (if_neg hp)).symm.trans hj

/-! ## The obligations about the decoder -/

/-- Settles O6: the encoding's fields are the row's, and a well-formed instruction is on a port of its row. -/
theorem decodeOfEncode : Obligations.DecodeOfEncode := fun _ => decode_encode

/-- Settles O7: of the five answers of the decoder one accepts, and there the three fields make up the word. -/
theorem encodeOfDecode : Obligations.EncodeOfDecode := fun _ _ => encode_of_decode

/-- Settles O8: each word is the encoding of a well-formed instruction. -/
theorem sampleWordsDecode : Obligations.SampleWordsDecode :=
  ⟨decode_encode (i := .evUpdate) rfl, decode_encode (i := .evCapture 332) rfl, decode_encode (i := .startCycle) rfl,
    decode_encode (i := .convertPublish) rfl, decode_encode (i := .rdDistance .reader) rfl,
    decode_encode (i := .rdRawDuration) rfl⟩

/-- Settles O4: each answer of the decoder stands at its place in the rule's chain. -/
theorem decodeChecksInOrder : Obligations.DecodeChecksInOrder := by
  intro port w opc rsv arg assigned ports
  rcases decode_cases ⟨port, w⟩ with ⟨hnone, hd⟩ | ⟨o, ho, hchecks⟩
  · have hreserved : opc ∉ assigned := (Opcode.ofCode_eq_none_iff opc).mp hnone
    rw [if_pos hreserved]
    exact hd
  have hcode : o.code = opc := Opcode.code_of_ofCode ho
  have hassigned : opc ∈ assigned := hcode ▸ List.mem_map_of_mem o.mem_all
  have hports : ports = o.ports := by rw [← o.ports_eq_ite, hcode]
  have hcapture : opc = 0x02 ↔ o = .evCapture := hcode ▸ Opcode.code_injective.eq_iff (b := .evCapture)
  rw [if_neg (not_not_intro hassigned), hports]
  rcases hchecks with ⟨(hrsv : rsv ≠ 0), hd⟩ | ⟨(hrsv : rsv = 0), hne, harg, hd⟩ |
    ⟨(hrsv : rsv = 0), (harg : o = .evCapture ∨ arg = 0), hport, hd⟩ |
    ⟨(hrsv : rsv = 0), (harg : o = .evCapture ∨ arg = 0), hport, hd⟩
  · rw [if_pos hrsv]
    exact hd
  · rw [if_neg (not_not_intro hrsv), if_pos ⟨mt hcapture.mp hne, harg⟩]
    exact hd
  · rw [if_neg (not_not_intro hrsv), if_neg fun ⟨hopc, ha⟩ => harg.elim (mt hcapture.mpr hopc) ha, if_pos hport]
    exact hd
  · rw [if_neg (not_not_intro hrsv), if_neg fun ⟨hopc, ha⟩ => harg.elim (mt hcapture.mpr hopc) ha,
      if_neg (not_not_intro hport)]
    refine ⟨_, hd, ?_, Instr.port_ofOpcode hport _, fun hopc => ?_⟩
    · rw [Instr.opcode_ofOpcode, hcode]
    · rw [hcapture.mp hopc]
      rfl

/-- A row of the table of rule R76: its mnemonic, match value, mask and ports. -/
def Opcode.row (o : Opcode) : Opcode × Word × Word × List Port := (o, o.matchWord, o.maskWord, o.ports)

/-- Settles O5: the table is the model's opcode map, and a word that two rows select carries the OPC of both. -/
theorem acceptedWordsAreTheTableRows : Obligations.AcceptedWordsAreTheTableRows := by
  unfold Obligations.AcceptedWordsAreTheTableRows
  intro table
  have htable : table = Opcode.all.map Opcode.row := by decide
  rw [htable]
  refine ⟨fun port w o => ?_, ?_⟩
  · rw [decode_accepted_opcode_iff]
    simp [Opcode.row, Opcode.mem_all]
  · intro row hrow row' hrow' w hw hw'
    obtain ⟨o, -, rfl⟩ := List.mem_map.mp hrow
    obtain ⟨o', -, rfl⟩ := List.mem_map.mp hrow'
    obtain ⟨hopc, -⟩ := (o.and_maskWord_eq_matchWord_iff w).mp hw
    obtain ⟨hopc', -⟩ := (o'.and_maskWord_eq_matchWord_iff w).mp hw'
    exact congrArg Opcode.row (Opcode.code_injective (hopc.symm.trans hopc'))

end Sys2Proof

namespace Sys2Proof.Machine

/-- Settles O9: a port accepts a row's operation where the row lists it, and the rows it is listed in are its classes. -/
theorem portsAcceptOnlyTheirClasses : Obligations.PortsAcceptOnlyTheirClasses := by
  refine ⟨fun op i hd => ?_, fun p i => ?_⟩
  · have hport := port_mem_of_decode hd
    refine ⟨hport, fun hp => ?_, fun hp => ?_, fun hp => ?_⟩
    · exact i.opcode.event_mem_ports_iff.mp (hp ▸ hport)
    · exact i.opcode.host_mem_ports_iff.mp (hp ▸ hport)
    · rw [Instr.eq_rdDistance_port (i.opcode.reader_mem_ports_iff.mp (hp ▸ hport)), ← port_of_decode hd, hp]
  · rw [decode_encode_word_accepted_iff]
    cases p with
    | event => exact i.opcode.event_mem_ports_iff
    | host => exact i.opcode.host_mem_ports_iff
    | reader => exact i.opcode.reader_mem_ports_iff

/-! ## Assembled lines (rule R83) -/

/-- EV_CAPTURE with an operand a counter can hold. -/
theorem AsmLine.assemble_evCapture {l : AsmLine} {n : Nat} (hm : l.mnemonic = .evCapture)
    (ho : l.operand = some (n : Int)) (hn : n ≤ 65535) :
    l.assemble = .ok ⟨l.linePort, opwOf l.mnemonic.code (BitVec.ofNat 16 n)⟩ := by
  have hrange : 0 ≤ (n : Int) ∧ (n : Int) ≤ 65535 := by omega
  obtain ⟨port, mnemonic, operand⟩ := l
  subst hm ho
  rw [← BitVec.ofInt_natCast]
  exact if_pos hrange

theorem AsmLine.assemble_of_operand_eq_none {l : AsmLine} (hm : l.mnemonic ≠ .evCapture) (ho : l.operand = none) :
    l.assemble = .ok ⟨l.linePort, opwOf l.mnemonic.code 0⟩ := by
  obtain ⟨port, mnemonic, operand⟩ := l
  subst ho
  cases mnemonic with
  | evCapture => exact absurd rfl hm
  | _ => rfl

theorem AsmLine.assemble_of_illegal_operand {l : AsmLine} {n : Int} (ho : l.operand = some n)
    (h : n < 0 ∨ 65535 < n ∨ l.mnemonic ≠ .evCapture) : ∃ e, l.assemble = .error e := by
  obtain ⟨port, mnemonic, operand⟩ := l
  subst ho
  cases mnemonic with
  | evCapture =>
    have hrange : ¬(0 ≤ n ∧ n ≤ 65535) := fun ⟨h0, h1⟩ => by
      rcases h with h | h | h
      · omega
      · omega
      · exact h rfl
    exact ⟨.operandOutOfRange, if_neg hrange⟩
  | _ => exact ⟨.operandNotAllowed, rfl⟩

/-- Everything an assembled line can stand for: its mnemonic's OPC on its port, with an operand its row admits. -/
theorem AsmLine.assemble_ok_inv {l : AsmLine} {op : Operation} (h : l.assemble = .ok op) :
    ∃ arg : Counter, (l.mnemonic = .evCapture ∨ arg = 0) ∧ (arg.toNat : Int) = l.operand.getD 0 ∧
      op = ⟨l.linePort, opwOf l.mnemonic.code arg⟩ := by
  cases ho : l.operand with
  | none =>
    by_cases hm : l.mnemonic = .evCapture
    · simp [AsmLine.assemble, hm, ho] at h
    · cases (AsmLine.assemble_of_operand_eq_none hm ho).symm.trans h
      exact ⟨0, .inr rfl, rfl, rfl⟩
  | some n =>
    by_cases hillegal : n < 0 ∨ 65535 < n ∨ l.mnemonic ≠ .evCapture
    · obtain ⟨e, he⟩ := AsmLine.assemble_of_illegal_operand ho hillegal
      cases he.symm.trans h
    · have hnonneg : 0 ≤ n := Int.not_lt.mp fun hneg => hillegal (.inl hneg)
      have hle : n ≤ 65535 := Int.not_lt.mp fun hgt => hillegal (.inr (.inl hgt))
      have hm : l.mnemonic = .evCapture := Decidable.of_not_not fun hne => hillegal (.inr (.inr hne))
      obtain ⟨k, rfl⟩ := Int.eq_ofNat_of_zero_le hnonneg
      have hk : k ≤ 65535 := by omega
      cases (AsmLine.assemble_evCapture hm ho hk).symm.trans h
      refine ⟨BitVec.ofNat 16 k, .inl hm, ?_, rfl⟩
      rw [BitVec.toNat_ofNat, Nat.mod_eq_of_lt (by omega)]
      rfl

theorem AsmLine.linePort_of_none {l : AsmLine} (h : l.port = none) :
    l.linePort = if l.mnemonic.code.toNat < 0x10 then .event else .host := by
  rw [AsmLine.linePort, h]
  cases l.mnemonic <;> decide

theorem AsmLine.linePort_of_some {l : AsmLine} {p : Port} (h : l.port = some p) : l.linePort = p := by
  rw [AsmLine.linePort, h]
  rfl

/-- The word of EV_CAPTURE with an operand written as a number. -/
theorem opwOf_evCapture_ofNat {n : Nat} (h : n ≤ 65535) :
    opwOf Opcode.evCapture.code (BitVec.ofNat 16 n) = (0x02 : Word) <<< 24 ||| BitVec.ofNat 32 n := by
  have hn : (BitVec.ofNat 16 n).setWidth 32 = BitVec.ofNat 32 n :=
    BitVec.setWidth_ofNat_of_le_of_lt (by decide) (by omega)
  rw [opwOf, hn]
  rfl

/-- Settles O11: each legal line has its word, the word's port is the one check left to the decoder, and the other operands
are errors. -/
theorem assembledLinesDecodeToTheirMnemonic : Obligations.AssembledLinesDecodeToTheirMnemonic := by
  refine ⟨fun l n hm ho hn => ?_, fun l hm ho => ?_, fun l op h => ?_,
    fun l => ⟨AsmLine.linePort_of_none, fun _ => AsmLine.linePort_of_some⟩,
    fun l n ho h => AsmLine.assemble_of_illegal_operand ho h⟩
  · rw [AsmLine.assemble_evCapture hm ho hn, hm, opwOf_evCapture_ofNat hn]
  · rw [AsmLine.assemble_of_operand_eq_none hm ho, ← Opcode.matchWord_eq_opwOf, Opcode.matchWord]
  · obtain ⟨arg, harg, hoperand, rfl⟩ := AsmLine.assemble_ok_inv h
    refine ⟨rfl, ?_⟩
    split
    case isTrue hport =>
      refine ⟨_, decode_opwOf_of_mem harg hport, Instr.opcode_ofOpcode _ _ _, ?_⟩
      rw [Instr.arg_ofOpcode harg, hoperand]
    case isFalse hport => exact decode_opwOf_of_not_mem harg hport

/-! ## Refused words (rule R80) -/

/-- A step over a refused word sets the mark, records the refusal, and takes the operation off the list. -/
theorem step_refused {s : State} {op : Operation} {rest : List Operation} {r : DecodeRefusal}
    (hi : s.inbox = op :: rest) (hd : decode op = .refused r) :
    step s = .next (State.takeRefusal { s with inbox := rest } r) :=
  (step_cons hi).trans (perform_error hd _)

theorem refusal_cases {op : Operation} {r : DecodeRefusal} (h : decode op = .refused r) :
    r = .reservedOpcode op.word ∨ r = .reservedFieldNonzero op.word ∨ r = .argNotZero op.word ∨
      r = .wrongPort op.word op.port := by
  rcases decode_cases op with ⟨-, hd⟩ | ⟨o, -, ⟨-, hd⟩ | ⟨-, -, -, hd⟩ | ⟨-, -, -, hd⟩ | ⟨-, -, -, hd⟩⟩ <;>
    cases hd.symm.trans h
  · exact .inl rfl
  · exact .inr (.inl rfl)
  · exact .inr (.inr (.inl rfl))
  · exact .inr (.inr (.inr rfl))

/-- Settles O2: a refusal touches the mark and its record, marks last, and each check of the decoder has its own reason. -/
theorem refusedWordOnlySetsTheMark : Obligations.RefusedWordOnlySetsTheMark := by
  refine ⟨fun s _ _ r hi hd => ⟨s.refusalLog ++ [r], step_refused hi hd⟩, fun s t h => ?_, fun _ _ => refusal_cases⟩
  obtain ⟨-, hrefused, -⟩ := step_marksLast h
  exact hrefused

/-- Settles O28: EVENT is not in the row of RD_DISTANCE, so the term takes the branch of the refusal. -/
theorem rdDistanceOnEventIsRefused : Obligations.RdDistanceOnEventIsRefused := by
  intro s
  have hport : Port.event ∉ Opcode.rdDistance.ports := by decide
  have hword : (encode (.rdDistance .event)).word = 0x20000000 := by decide
  rw [exec, execRdDistance, if_neg hport, hword]
  rfl

/-! ## Outputs (rule R72) -/

/-- Settles O37: each effect appends its own flag clear or leaves the trace alone. -/
theorem outputsOfEveryOperation : Obligations.OutputsOfEveryOperation := by
  intro i s t h
  cases exec_effect h with
  | captureTrigger v hp => simp [Instr.isCapture, hp]
  | captureRising v hp he => simp [Instr.isCapture, he]
  | captureFalling v first hp he hf => simp [Instr.isCapture, hf]
  | captureFault v hp he hf => simp [Instr.isCapture, hp, he, hf]
  | _ => rfl

/-! ## Responses (rule R73) -/

@[simp] theorem State.unwrittenRead_with_inbox (s : State) (ops : List Operation) (i : Instr) :
    State.unwrittenRead { s with inbox := ops } i = s.unwrittenRead i := by
  cases i <;> rfl

/-- How a well-formed operation can respond: not at all for a fault or on EVENT, else once, on its own port, and with zero
for every command but ACQUIRE. -/
theorem Effect.responses_cases {i : Instr} {s t : State} (h : Effect s i t) (hw : i.wellFormed = true) :
    (s.unwrittenRead i ≠ none ∧ t.faulted = true ∧ t.responses = s.responses) ∨
      (s.unwrittenRead i = none ∧ i.port = .event ∧ t.responses = s.responses) ∨
      (s.unwrittenRead i = none ∧ i.port ≠ .event ∧
        ∃ w, t.responses = s.responses ++ [⟨i.port, w⟩] ∧ (opClass i = 0x1 → i ≠ .acquire → w = 0x00000000)) := by
  cases h with
  | captureFault v hp he hf => exact .inl ⟨by simp [State.unwrittenRead, State.unwritten, hp, he, hf], rfl, rfl⟩
  | convertFault hf | readCapFirstFault hf | readCapSecondFault hf | readRawDurationFault hf =>
    exact .inl ⟨by simp [State.unwrittenRead, State.unwritten, hf], rfl, rfl⟩
  | updateTrigger | updateEcho => exact .inr (.inl ⟨rfl, rfl, rfl⟩)
  | captureTrigger v hp => exact .inr (.inl ⟨by simp [State.unwrittenRead, hp], rfl, rfl⟩)
  | captureRising v hp he => exact .inr (.inl ⟨by simp [State.unwrittenRead, hp, he], rfl, rfl⟩)
  | captureFalling v first hp he hf => exact .inr (.inl ⟨by simp [State.unwrittenRead, hp, he, hf], rfl, rfl⟩)
  | startCycle | armEcho | acquireEmpty | publishBad => exact .inr (.inr ⟨rfl, nofun, 0, rfl, fun _ _ => rfl⟩)
  | acquireTaken => exact .inr (.inr ⟨rfl, nofun, 1, rfl, fun _ hne => absurd rfl hne⟩)
  | convert raw hr => exact .inr (.inr ⟨by simp [State.unwrittenRead, hr], nofun, 0, rfl, fun _ _ => rfl⟩)
  | readDistance port hport =>
    refine .inr (.inr ⟨rfl, ?_, _, rfl, fun hclass => absurd hclass (by simp [opClass, Instr.opcode, Opcode.code])⟩)
    rintro rfl
    exact absurd hport (by decide)
  | readDistanceRefused port hport => exact absurd ((Instr.wellFormed_iff_port_mem _).mp hw) hport
  | readStatus => exact .inr (.inr ⟨rfl, nofun, _, rfl, fun hclass => absurd hclass (by decide)⟩)
  | readCapFirst v hv | readCapSecond v hv | readRawDuration v hv =>
    exact .inr (.inr ⟨by simp [State.unwrittenRead, hv], nofun, _, rfl, fun hclass => absurd hclass (by decide)⟩)

/-- Settles O38: an accepted operation arrives on its own port, and its effect responds as its row says. -/
theorem oneResponsePerAcceptedOperation : Obligations.OneResponsePerAcceptedOperation := by
  intro s t op rest hi h
  cases hd : decode op with
  | refused r =>
    cases (step_refused hi hd).symm.trans h
    exact ⟨fun _ => rfl, nofun, nofun, fun _ _ => rfl⟩
  | accepted i =>
    rw [stepPerformsTheDecodedOperation s op rest i hi hd] at h
    have hcases := (exec_effect h).responses_cases (encode_of_decode hd).left
    rw [State.unwrittenRead_with_inbox, ← port_of_decode hd] at hcases
    refine ⟨fun hevent => ?_, ?_, ?_, nofun⟩
    · rcases hcases with ⟨-, -, hresponses⟩ | ⟨-, -, hresponses⟩ | ⟨-, hport, -⟩
      · exact hresponses
      · exact hresponses
      · exact absurd hevent hport
    · rintro _ ⟨⟩ hport hread
      rcases hcases with ⟨hfault, -⟩ | ⟨-, hevent, -⟩ | ⟨-, -, hresponds⟩
      · exact absurd hread hfault
      · exact absurd hevent hport
      · exact hresponds
    · rintro _ ⟨⟩ hread
      rcases hcases with ⟨-, hfault⟩ | ⟨hnone, -⟩ | ⟨hnone, -⟩
      · exact hfault
      · exact absurd hnone hread
      · exact absurd hnone hread

end Sys2Proof.Machine

end

section

namespace Sys2Proof.Machine

/-! ## Totality (rules R100, R129, R159, R200) -/

/-- Settles O3: an idle step, every meaning and every refusal answers a next state. -/
theorem everyStepAnswersANextState : Obligations.EveryStepAnswersANextState := step_total

/-! ## The duration function (rules R101 to R103) -/

/-- The one pair whose formula is negative, taken modulo 65536 (90_conflicts.md C1). -/
theorem duration_underflow_of_mod16 {c : Cfg} (hc : c.calOffset = 1) (hm : c.wrapUnderflowMode = .mod16) :
    duration c 65535 0 = 65535 := by
  simp [duration, hc, hm, counterMax]

/-- The same pair where the mode answers zero. -/
theorem duration_underflow_of_zero {c : Cfg} (hc : c.calOffset = 1) (hm : c.wrapUnderflowMode = .zero) :
    duration c 65535 0 = 0 := by
  simp [duration, hc, hm, counterMax]

/-- The pair whose formula is negative, as counters and as numbers. -/
theorem underflowPair_iff_toNat (first second : Counter) :
    (first = 65535 ∧ second = 0) ↔ first.toNat = 65535 ∧ second.toNat = 0 := by
  simp [BitVec.toNat_eq]

/-- Settles O12: each law reads off the number its branch gives, and the pair no branch gives is the mode's. -/
theorem durationRangeAndBranchLaws : Obligations.DurationRangeAndBranchLaws := by
  rintro c first second ⟨hcal, -⟩ d
  have hfirst := first.isLt
  have hsecond := second.isLt
  refine ⟨fun hlt => ?_, ?_, fun hlt hpair => ?_, ?_, ?_⟩
  · have hd : d = second.toNat - first.toNat - 1 := duration_of_lt hcal hlt
    have hextreme : (first = 0 ∧ second = 65535) ↔ first.toNat = 0 ∧ second.toNat = 65535 := by
      simp [BitVec.toNat_eq]
    rw [hextreme]
    omega
  · rintro rfl
    have hd : d = 65534 + second.toNat - second.toNat := duration_of_le hcal (Nat.le_refl _) (by omega)
    omega
  · rw [underflowPair_iff_toNat] at hpair
    have hd : d = 65534 + second.toNat - first.toNat := duration_of_le hcal (Nat.le_of_lt hlt) hpair
    omega
  · rintro ⟨rfl, rfl⟩
    cases hm : c.wrapUnderflowMode with
    | mod16 => exact congrArg BitVec.toNat (duration_underflow_of_mod16 hcal hm)
    | zero => exact congrArg BitVec.toNat (duration_underflow_of_zero hcal hm)
  · exact Nat.le_of_lt_succ (duration c first second).isLt

/-- Rule R103, the non-wrap branch: one tick less than the true count. -/
theorem duration_eq_of_lt {c : Cfg} (hc : c.calOffset = 1) {first second : Counter} (h : first.toNat < second.toNat) :
    duration c first second = second - first - 1 := by
  apply BitVec.eq_of_toNat_eq
  rw [duration_of_lt hc h]
  bv_omega

/-- Rule R103, the wraparound branch: two ticks less than the true count, modulo 65536. -/
theorem duration_eq_of_le {c : Cfg} (hc : c.calOffset = 1) {first second : Counter} (h : second.toNat ≤ first.toNat)
    (hp : ¬(first = 65535 ∧ second = 0)) : duration c first second = second - first - 2 := by
  rw [underflowPair_iff_toNat] at hp
  apply BitVec.eq_of_toNat_eq
  rw [duration_of_le hc h hp]
  bv_omega

/-- Settles O13: the branches give these counts, and so does the negative pair where it is taken modulo 65536. -/
theorem durationAgainstTheTrueCount : Obligations.DurationAgainstTheTrueCount := by
  rintro c first second ⟨hcal, -⟩ true_ticks
  refine ⟨duration_eq_of_lt hcal, fun hle hpair => ?_⟩
  by_cases hunderflow : first = 65535 ∧ second = 0
  · obtain ⟨rfl, rfl⟩ := hunderflow
    cases hm : c.wrapUnderflowMode with
    | mod16 => exact duration_underflow_of_mod16 hcal hm
    | zero => exact absurd ⟨rfl, rfl, hm⟩ hpair
  · exact duration_eq_of_le hcal hle hunderflow

/-! ## The transition table (rules R104 to R109) -/

theorem exec_evUpdate_trigger {s : State} (hp : s.phase = .trigger) :
    exec .evUpdate s = .next (({ s with phase := .echo }.raiseSignal).emit .clrUpdateFlag) := by
  simp [exec, execEvUpdate, hp]

theorem exec_evUpdate_echo {s : State} (hp : s.phase = .echo) : exec .evUpdate s = .next (s.emit .clrUpdateFlag) := by
  simp [exec, execEvUpdate, hp]

theorem exec_evCapture_trigger {s : State} (hp : s.phase = .trigger) (v : Counter) :
    exec (.evCapture v) s = .next (s.emit .clrCaptureFlag) := by
  simp [exec, execEvCapture, hp]

theorem exec_evCapture_rising {s : State} (hp : s.phase = .echo) (he : s.edge = .awaitingRisingEdge) (v : Counter) :
    exec (.evCapture v) s = .next (captureRising v s) := by
  simp [exec, execEvCapture, hp, he]

theorem captureFalling_of_some {s : State} {first : Counter} (hf : s.capFirst = some first) (v : Counter) :
    captureFalling v s =
      ({ s with capSecond := some v, rawDuration := some (duration s.cfg first v) }.raiseSignal).emit .clrCaptureFlag :=
  State.readElement_of_some (e := .capFirst) hf _

/-- Settles O17: one rule of execution for each row of the table. -/
theorem eventTransitionTable : Obligations.EventTransitionTable := fun _ v =>
  ⟨exec_evUpdate_trigger, exec_evUpdate_echo, fun hp => exec_evCapture_trigger hp v,
    fun hp he => exec_evCapture_rising hp he v,
    fun _ hp he hf => (exec_evCapture_falling hp he v).trans (congrArg _ (captureFalling_of_some hf v))⟩

/-! ## EDGE (rule R111) -/

/-- Only the rising branch of EV_CAPTURE is an event operation that moves EDGE. -/
theorem Effect.event_changes_edge {i : Instr} {s t : State} (h : Effect s i t) (hc : opClass i = 0x0)
    (hne : t.edge ≠ s.edge) :
    s.phase = .echo ∧ s.edge = .awaitingRisingEdge ∧ t.edge = .awaitingFallingEdge ∧ ∃ v, i = .evCapture v := by
  cases h with
  | captureRising v hp he => exact ⟨hp, he, rfl, v, rfl⟩
  | startCycle | armEcho => exact absurd hc (by decide)
  | _ => exact absurd rfl hne

/-- Settles O18: of the effects that write EDGE, one is an event operation's. -/
theorem eventsChangeEdgeOnlyInEcho : Obligations.EventsChangeEdgeOnlyInEcho :=
  fun _ _ _ hc h => (exec_effect h).event_changes_edge hc

/-! ## The isolated cycle (rules R108, R130, R258) -/

/-- `t` is at the start of a cycle, with no signal pending and the samples of `s` in its capture registers. -/
def State.CycleIsolated (s t : State) : Prop :=
  t.phase = .trigger ∧ t.edge = .awaitingRisingEdge ∧ t.sig = false ∧
    t.capFirst = s.capFirst ∧ t.capSecond = s.capSecond ∧ t.rawDuration = s.rawDuration

/-- In Trigger every capture is discarded, and no other operation but EV_UPDATE leaves the start of a cycle. -/
theorem Effect.keeps_cycleIsolated {s t u : State} {i : Instr} (h : Effect t i u) (hi : i ≠ .evUpdate)
    (ht : s.CycleIsolated t) : s.CycleIsolated u := by
  obtain ⟨hphase, hedge, hsig, hcaptures⟩ := ht
  have hecho : t.phase ≠ .echo := by simp [hphase]
  cases h with
  | updateTrigger | updateEcho => exact absurd rfl hi
  | captureRising _ hp | captureFalling _ _ hp | captureFault _ hp => exact absurd hp hecho
  | startCycle => exact ⟨rfl, rfl, rfl, hcaptures⟩
  | armEcho => exact ⟨hphase, rfl, hsig, hcaptures⟩
  | acquireTaken => exact ⟨hphase, hedge, rfl, hcaptures⟩
  | _ => exact ⟨hphase, hedge, hsig, hcaptures⟩

theorem State.cycleIsolated_keptUnless_evUpdate (s : State) : KeptUnless (· == .evUpdate) s.CycleIsolated where
  inbox _ _ ht := ht
  effect _ _ _ h hi := h.keeps_cycleIsolated (beq_eq_false_iff_ne.mp hi)
  refusal _ _ ht := ht

/-- Settles O47: START_CYCLE goes to the start of a cycle, and what is performed after it stays there. -/
theorem startCycleIsolatesTheCycle : Obligations.StartCycleIsolatesTheCycle := by
  intro s after hi hafter
  have hstart := step_encode (i := .startCycle) rfl hi
  have hui := step_inbox hstart
  rw [hi, List.tail_cons] at hui
  obtain ⟨t, hrun, -, ht⟩ := s.cycleIsolated_keptUnless_evUpdate.run (hui.trans (List.append_nil after).symm) hafter
    ⟨rfl, rfl, rfl, rfl, rfl, rfl⟩
  exact ⟨t, (run_succ_of_next _ hstart).trans hrun, ht⟩

end Sys2Proof.Machine

end

section

namespace Sys2Proof.Machine

/-! ## The conversion function (rule R141) -/

theorem convert_eq (c : Cfg) (raw : Counter) :
    convert c raw = (raw.toNat * c.tickNum / (c.tickDen * c.usPerCm) : Nat) := rfl

/-- Conditions 3 and 4 of rule R11 make the divisor of the conversion positive. -/
theorem divisor_pos_of_wellFormed {c : Cfg} (hc : c.WellFormed) : 0 < c.tickDen * c.usPerCm := by
  obtain ⟨-, -, ⟨hden, -⟩, ⟨hus, -⟩, -⟩ := hc
  exact Nat.mul_pos hden hus

/-- The conversion does not exceed the exact quotient. -/
theorem convert_mul_le (c : Cfg) (raw : Counter) :
    convert c raw * (c.tickDen * c.usPerCm) ≤ raw.toNat * c.tickNum := by
  rw [convert_eq]
  exact_mod_cast Nat.div_mul_le_self (raw.toNat * c.tickNum) (c.tickDen * c.usPerCm)

/-- The integer after the conversion exceeds the exact quotient, as the divisor is positive. -/
theorem lt_convert_add_one_mul {c : Cfg} (hc : c.WellFormed) (raw : Counter) :
    raw.toNat * c.tickNum < (convert c raw + 1) * (c.tickDen * c.usPerCm) := by
  rw [convert_eq]
  exact_mod_cast (Nat.div_lt_iff_lt_mul (divisor_pos_of_wellFormed hc)).mp (Nat.lt_succ_self _)

theorem convert_default (raw : Counter) : convert Cfg.default raw = (5 * raw.toNat / 116 : Nat) := by
  rw [convert_eq, Nat.mul_comm]
  rfl

/-- Settles O14: the two bounds of a floor, the range of the conversion, and both functions at the default parameters. -/
theorem conversionIsTheExactFloor : Obligations.ConversionIsTheExactFloor := by
  refine ⟨fun c raw hc => ?_, fun _ => rfl, convert_default, by decide⟩
  obtain ⟨hnonneg, hle⟩ := convert_bounds c raw
  exact ⟨convert_mul_le c raw, lt_convert_add_one_mul hc raw, hnonneg, hle, dmax_le_of_wellFormed hc⟩

/-! ## START_CYCLE and PHASE (rules R130, R131) -/

/-- Settles O22: `exec` at START_CYCLE, whose one update depends on no element. -/
theorem startCycleResetsPhaseEdgeAndSignal : Obligations.StartCycleResetsPhaseEdgeAndSignal := fun _ => rfl

/-- A step that changes what neither the delivery list nor a refusal touches performs an accepted operation. -/
theorem step_performs_of_ne {α : Type} {f : State → α} (hinbox : ∀ s ops, f { s with inbox := ops } = f s)
    (hrefuse : ∀ s r, f (s.takeRefusal r) = f s) {s t : State} (h : step s = .next t) (hne : f t ≠ f s) :
    ∃ op rest i, s.inbox = op :: rest ∧ decode op = .accepted i ∧ Effect { s with inbox := rest } i t := by
  rcases step_cases h with ⟨-, rfl⟩ | ⟨op, rest, hi, ⟨i, hd, hexec⟩ | ⟨r, -, rfl⟩⟩
  · exact absurd rfl hne
  · exact ⟨op, rest, i, hi, hd, exec_effect hexec⟩
  · exact absurd ((hrefuse _ r).trans (hinbox s rest)) hne

/-- START_CYCLE is the one effect that returns PHASE to Trigger. -/
theorem Effect.eq_startCycle {i : Instr} {s t : State} (h : Effect s i t) (hs : s.phase = .echo)
    (ht : t.phase = .trigger) : i = .startCycle := by
  cases h with
  | startCycle => rfl
  | updateTrigger => cases ht
  | _ => cases hs.symm.trans ht

/-- Settles O34: the step performs an operation, for PHASE changed, and one effect changes it this way. -/
theorem onlyStartCycleReturnsToTrigger : Obligations.OnlyStartCycleReturnsToTrigger := by
  refine ⟨fun s t h hs ht => ?_, fun s t _ h => ?_⟩
  · have hne : t.phase ≠ s.phase := by simp [hs, ht]
    obtain ⟨op, rest, i, hi, hd, heffect⟩ :=
      step_performs_of_ne (f := State.phase) (fun _ _ => rfl) (fun _ _ => rfl) h hne
    obtain rfl := heffect.eq_startCycle hs ht
    exact ⟨op, rest, hi, hd⟩
  · cases h
    rfl

/-! ## ARM_ECHO (rule R133) -/

/-- Settles O23: after ARM_ECHO the phase is what it was and the rising edge is awaited, which selects the next capture's
branch. -/
theorem armEchoRestartsTheEdgePair : Obligations.ArmEchoRestartsTheEdgePair := by
  refine fun s => ⟨_, rfl, rfl, fun hp v => ?_, fun hp v => ?_⟩
  · refine exec_evCapture_trigger ?_ v
    exact hp
  · refine exec_evCapture_rising ?_ rfl v
    exact hp

/-! ## ACQUIRE (rule R135) -/

theorem exec_acquire_pending {s : State} (h : s.sig = true) :
    exec .acquire s = .next (s.clearSignal.respond .host 1) := by
  simp [exec, execAcquire, h]

theorem exec_acquire_empty {s : State} (h : s.sig = false) : exec .acquire s = .next (s.respond .host 0) := by
  simp [exec, execAcquire, h]

/-- Rule R73: no response goes to EVENT. -/
theorem Effect.event_responses {i : Instr} {s t : State} (h : Effect s i t) (hc : opClass i = 0x0) :
    t.responses = s.responses := by
  obtain rfl | ⟨v, rfl⟩ := eq_of_opClass_event hc
  · cases h <;> rfl
  · cases h <;> rfl

/-- A signal that is pending outlives every event operation, and setting it again counts no second one. -/
theorem Effect.event_keeps_sig {i : Instr} {s t : State} (h : Effect s i t) (hc : opClass i = 0x0)
    (hs : s.sig = true) : t.sig = true := by
  obtain ⟨-, -, -, hsig, -⟩ := h.event_writes hc
  exact hsig.elim (·.trans hs) id

/-- Settles O24: ACQUIRE empties the slot, so a second one finds nothing, also where a second signal met the first there. -/
theorem acquireTestsAndClearsTheSignal : Obligations.AcquireTestsAndClearsTheSignal := by
  refine fun s => ⟨fun hs => ⟨_, rfl, exec_acquire_pending hs, exec_acquire_empty rfl⟩, exec_acquire_empty,
    fun i t hs h hbranch => ?_⟩
  have hc : opClass i = 0x0 := by
    rcases hbranch with ⟨rfl, -⟩ | ⟨⟨v, rfl⟩, -⟩
    · rfl
    · simp [opClass, Instr.opcode, Opcode.code]
  have heffect := exec_effect h
  refine ⟨_, exec_acquire_pending (heffect.event_keeps_sig hc hs), ?_, exec_acquire_empty rfl⟩
  exact congrArg (· ++ _) (heffect.event_responses hc)

/-! ## The two publications (rules R140, R145, R146) -/

theorem convert_zero (c : Cfg) : convert c 0 = 0 := by
  simp [convert_eq]

/-- `DMAX` is the conversion of the largest counter value. -/
theorem convert_counterMax (c : Cfg) : convert c 0xFFFF = c.dmax := rfl

/-- Rule R140's corner cases under the default parameters. -/
theorem encS32_convert_default_corners (raw : Counter) :
    (raw.toNat ≤ 23 → encS32 (convert Cfg.default raw) = 0) ∧ (raw = 24 → encS32 (convert Cfg.default raw) = 1) ∧
      (raw = 232 → encS32 (convert Cfg.default raw) = 10) ∧ (raw = 0xFFFF → encS32 (convert Cfg.default raw) = 2824) := by
  refine ⟨fun hraw => ?_, ?_, ?_, ?_⟩
  · have hquotient : 5 * raw.toNat / 116 = 0 := by omega
    rw [convert_default, hquotient]
    rfl
  all_goals
    rintro rfl
    decide

/-- Settles O25: the conversion does not depend on DISTANCE, so a second one repeats it; its sign and its corner values are
those of the conversion function. -/
theorem convertPublishPublishesTheConversion : Obligations.ConvertPublishPublishesTheConversion := by
  refine ⟨fun s raw hc hraw => ?_, fun s hraw => ⟨_, next_readElement_of_none (e := .rawDuration) hraw _⟩⟩
  have hnonneg := (convert_bounds s.cfg raw).left
  have htoInt := toInt_encS32_convert hc raw
  refine ⟨encS32 (convert s.cfg raw), _, rfl, rfl, exec_convertPublish_of_some hraw, exec_convertPublish_of_some hraw,
    ?_, ?_, ?_, ?_, ?_⟩
  · rwa [htoInt]
  · rw [htoInt, badValue]
    omega
  · rintro rfl
    rw [convert_zero]
    rfl
  · rintro rfl
    exact htoInt.trans (convert_counterMax s.cfg)
  · intro hdefault
    exact hdefault ▸ encS32_convert_default_corners raw

/-- Settles O26: `exec` at PUBLISH_BAD, with the sentinel's pattern 0xFFFFFFFF. -/
theorem publishBadPublishesTheSentinel : Obligations.PublishBadPublishesTheSentinel := fun _ => rfl

theorem eq_of_publishes {i : Instr} (h : i.publishes = true) : i = .convertPublish ∨ i = .publishBad := by
  simpa [Instr.publishes] using h

/-- Settles O36: an operation that changes DISTANCE publishes, and each publication writes its own range of values. -/
theorem onlyTheTwoPublicationsWriteDistance : Obligations.OnlyTheTwoPublicationsWriteDistance := by
  refine ⟨fun s t h hne => ?_, fun s t hc hraw h => ?_, fun s t h => ?_⟩
  · obtain ⟨op, rest, i, hi, hd, heffect⟩ :=
      step_performs_of_ne (f := State.distance) (fun _ _ => rfl) (fun _ _ => rfl) h hne
    have hpublishes : i.publishes = true := by
      cases hvalue : i.publishes with
      | true => rfl
      | false => exact absurd (heffect.distance_eq hvalue) hne
    refine ⟨op, rest, hi, ?_⟩
    rcases eq_of_publishes hpublishes with rfl | rfl
    · exact .inl hd
    · exact .inr hd
  · cases exec_effect h with
    | convert raw => simpa only [toInt_encS32_convert hc raw] using convert_bounds s.cfg raw
    | convertFault hnone => exact absurd hnone hraw
  · cases exec_effect h
    exact toInt_encS32 (by decide) (by decide)

end Sys2Proof.Machine

end

section

namespace Sys2Proof.Machine

/-! ## RD_DISTANCE (rules R160, R166) -/

theorem exec_rdDistance {port : Port} (hp : port = .host ∨ port = .reader) (s : State) :
    exec (.rdDistance port) s = .next (s.respond port s.distance) := by
  rcases hp with rfl | rfl <;> rfl

/-- A run of any length over delivered operations of which `p` does not hold keeps `P`; past the last one it idles. -/
theorem KeptUnless.of_run {p : Instr → Bool} {P : State → Prop} (hkept : KeptUnless p P) {n : Nat} {s t : State}
    (h : Machine.run n s = .next t) (hops : ∀ op ∈ s.inbox, decodesTo p op = false) (hs : P s) : P t := by
  have hboth : (∀ op ∈ t.inbox, decodesTo p op = false) ∧ P t := by
    refine run_keeps (P := fun u => (∀ op ∈ u.inbox, decodesTo p op = false) ∧ P u) ?_ h ⟨hops, hs⟩
    rintro u v hstep ⟨huops, hPu⟩
    refine ⟨fun op hop => huops op (List.mem_of_mem_tail (step_inbox hstep ▸ hop)), ?_⟩
    cases hi : u.inbox with
    | nil =>
      cases (step_nil hi).symm.trans hstep
      exact hPu
    | cons op rest => exact hkept.step hstep hi (huops op (hi ▸ List.mem_cons_self)) hPu
  exact hboth.right

/-- Settles O27: both ports are in the row of RD_DISTANCE, and a run without a publication holds the DISTANCE it starts
with, which is the sentinel. -/
theorem rdDistanceRespondsTheDistance : Obligations.RdDistanceRespondsTheDistance := by
  refine ⟨fun s _ hp => exec_rdDistance hp s, fun c ops n t hops hrun => ?_⟩
  obtain ⟨hdistance, -⟩ :=
    (State.distanceHeld_keptUnless_publishes (State.started c ops)).of_run hrun hops ⟨rfl, List.prefix_rfl⟩
  exact hdistance

/-- Settles O32: the response is DISTANCE in the one state and in the other. -/
theorem rdDistanceDependsOnTheDistanceAlone : Obligations.RdDistanceDependsOnTheDistanceAlone := by
  intro s s' port hp hdistance
  refine ⟨s.distance, _, _, exec_rdDistance hp s, exec_rdDistance hp s', rfl, ?_⟩
  rw [hdistance]
  rfl

/-! ## RD_STATUS (rules R35, R161) -/

theorem Phase.getLsbD_bit_iff (p : Phase) : p.bit.getLsbD 0 = true ↔ p = .echo := by
  cases p <;> decide

theorem EdgeState.getLsbD_bit_iff (e : EdgeState) : e.bit.getLsbD 0 = true ↔ e = .awaitingFallingEdge := by
  cases e <;> decide

theorem Polarity.getLsbD_bit_iff (c : Polarity) : c.bit.getLsbD 0 = true ↔ c = .falling := by
  cases c <;> decide

/-- Where rule R35 places the four one-bit elements in STATUS, and the zeros above them. -/
theorem State.statusWord_getLsbD (s : State) :
    s.statusWord.getLsbD 0 = s.phase.bit.getLsbD 0 ∧ s.statusWord.getLsbD 1 = s.edge.bit.getLsbD 0 ∧
      s.statusWord.getLsbD 2 = s.sig ∧ s.statusWord.getLsbD 3 = s.capPol.bit.getLsbD 0 ∧
      ∀ k, 4 ≤ k → s.statusWord.getLsbD k = false := by
  have habove : ∀ k, 4 ≤ k → s.statusWord.getLsbD k = false := fun k hk => by
    rw [State.statusWord, BitVec.getLsbD_setWidth, BitVec.getLsbD_of_ge _ k hk, Bool.and_false]
  refine ⟨?_, ?_, ?_, ?_, habove⟩
  all_goals
    simp only [State.statusWord, State.capPolOutput, State.sigOutput, BitVec.getLsbD_setWidth, BitVec.getLsbD_append]
    simp

/-- Settles O29: the response is STATUS, of which each bit is one element's. -/
theorem rdStatusRespondsTheView : Obligations.RdStatusRespondsTheView := by
  refine ⟨fun s => ?_, rfl⟩
  obtain ⟨hphase, hedge, hsig, hpol, habove⟩ := s.statusWord_getLsbD
  refine ⟨s.statusWord, rfl, ?_, ?_, hsig, ?_, habove⟩
  · rw [hphase, Phase.getLsbD_bit_iff]
  · rw [hedge, EdgeState.getLsbD_bit_iff]
  · rw [hpol, Polarity.getLsbD_bit_iff]

/-! ## The sample reads (rules R162 to R164) -/

theorem zext32_eq_ofNat (v : Counter) : zext32 v = BitVec.ofNat 32 v.toNat := (BitVec.ofNat_toNat 32 v).symm

theorem State.respondElement_of_some {s : State} {e : Element} {v : Counter} (h : s.element e = some v) :
    s.respondElement e = s.respond .host (BitVec.ofNat 32 v.toNat) := by
  rw [State.respondElement, State.readElement_of_some h, zext32_eq_ofNat]

/-- Settles O30: each sample read is the response of its element. -/
theorem sampleReadsRespondZeroExtended : Obligations.SampleReadsRespondZeroExtended := fun _ _ =>
  ⟨fun h => congrArg _ (State.respondElement_of_some (e := .capFirst) h),
    fun h => congrArg _ (State.respondElement_of_some (e := .capSecond) h),
    fun h => congrArg _ (State.respondElement_of_some (e := .rawDuration) h)⟩

/-! ## What a read leaves unchanged (rules R159, R203) -/

/-- Everything a well-formed read can do: respond once on its port, or take the fault for the element it reads. -/
theorem Effect.read_cases {i : Instr} {s t : State} (h : Effect s i t) (hw : i.wellFormed = true)
    (hc : opClass i = 0x2) :
    (s.unwrittenRead i = none ∧ ∃ w, t = s.respond i.port w) ∨
      ∃ e, s.unwrittenRead i = some e ∧ s.element e = none ∧ t = s.takeFault (.unwrittenRead e) := by
  cases h with
  | readDistance | readStatus => exact .inl ⟨rfl, _, rfl⟩
  | readDistanceRefused port hport => exact absurd ((Instr.wellFormed_iff_port_mem _).mp hw) hport
  | readCapFirst v hv | readCapSecond v hv | readRawDuration v hv =>
    exact .inl ⟨by simp [State.unwrittenRead, hv], _, rfl⟩
  | readCapFirstFault hnone => exact .inr ⟨.capFirst, by simp [State.unwrittenRead, hnone], hnone, rfl⟩
  | readCapSecondFault hnone => exact .inr ⟨.capSecond, by simp [State.unwrittenRead, hnone], hnone, rfl⟩
  | readRawDurationFault hnone => exact .inr ⟨.rawDuration, by simp [State.unwrittenRead, hnone], hnone, rfl⟩
  | _ => simp [opClass, Instr.opcode, Opcode.code] at hc

/-- Settles O31: of the effects of a read, one responds and the other is the fault. -/
theorem readsWriteNothing : Obligations.ReadsWriteNothing := fun _ _ _ hw hc h => (exec_effect h).read_cases hw hc

end Sys2Proof.Machine

end

section

namespace Sys2Proof.Machine

/-! ## Where an operation faults and what it records (rules R202, R203) -/

/-- A well-formed operation takes the fault for the unwritten element it reads, or reads none and leaves both marks and both
records alone. -/
theorem Effect.fault_cases {i : Instr} {s t : State} (h : Effect s i t) (hw : i.wellFormed = true) :
    (∃ e, s.unwrittenRead i = some e ∧ s.element e = none ∧ t = s.takeFault (.unwrittenRead e)) ∨
      (s.unwrittenRead i = none ∧
        t.faulted = s.faulted ∧ t.faultLog = s.faultLog ∧ t.refused = s.refused ∧ t.refusalLog = s.refusalLog) := by
  cases h with
  | captureFault v hp he hf => exact .inl ⟨.capFirst, by simp [State.unwrittenRead, hp, he, hf], hf, rfl⟩
  | readCapFirstFault hf => exact .inl ⟨.capFirst, by simp [State.unwrittenRead, hf], hf, rfl⟩
  | readCapSecondFault hf => exact .inl ⟨.capSecond, by simp [State.unwrittenRead, hf], hf, rfl⟩
  | convertFault hf | readRawDurationFault hf =>
    exact .inl ⟨.rawDuration, by simp [State.unwrittenRead, hf], hf, rfl⟩
  | captureTrigger v hp => exact .inr ⟨by simp [State.unwrittenRead, hp], rfl, rfl, rfl, rfl⟩
  | captureRising v hp he => exact .inr ⟨by simp [State.unwrittenRead, hp, he], rfl, rfl, rfl, rfl⟩
  | captureFalling v first hp he hf => exact .inr ⟨by simp [State.unwrittenRead, hp, he, hf], rfl, rfl, rfl, rfl⟩
  | convert v hv | readCapFirst v hv | readCapSecond v hv | readRawDuration v hv =>
    exact .inr ⟨by simp [State.unwrittenRead, hv], rfl, rfl, rfl, rfl⟩
  | readDistanceRefused port hport => exact absurd ((Instr.wellFormed_iff_port_mem _).mp hw) hport
  | _ => exact .inr ⟨rfl, rfl, rfl, rfl, rfl⟩

/-- Settles O21: an effect is the fault exactly where it reads `⊥`, and a refusal adds to its own record alone. -/
theorem faultsAndRefusalsRecordTheirInformation : Obligations.FaultsAndRefusalsRecordTheirInformation := by
  refine ⟨fun _ _ _ hw h => ?_, fun _ _ _ _ _ hi hd h => ?_⟩
  · rcases (exec_effect h).fault_cases hw with ⟨e, hread, hfault⟩ | ⟨hread, hmarks⟩
    · rw [hread]
      exact hfault
    · rw [hread]
      exact hmarks
  · cases (step_refused hi hd).symm.trans h
    exact ⟨rfl, rfl⟩

end Sys2Proof.Machine

end

section

namespace Sys2Proof.Machine

/-! ## An agent's operation (30_encoding.md rule R79) -/

/-- An agent's well-formed operation is performed as the instruction it encodes. -/
theorem State.issue_of_exec {s t : State} {i : Instr} (hw : i.wellFormed = true) (h : exec i s = .next t) :
    s.issue i = some t := by
  simp [State.issue, perform_ok (decode_encode hw), h]

/-- The block always goes on after an agent's operation, and what is done with the state it goes on in is done with the
operation's effect. -/
theorem State.issue_map (s : State) {i : Instr} (hw : i.wellFormed = true) (f : State → TaskSystem) :
    ∃ t, (s.issue i).map f = some (f t) ∧ Effect s i t := by
  obtain ⟨t, ht⟩ := exec_total i s
  exact ⟨t, congrArg (Option.map f) (State.issue_of_exec hw ht), exec_effect ht⟩

@[simp] theorem State.lastResponse_respond (s : State) (p : Port) (w : Word) :
    (s.respond p w).lastResponse = some w := by
  simp [State.lastResponse]

/-! ## The waits of the task (rules R243, R245, R251) -/

theorem TaskSystem.wait_of_pending {t : TaskSystem} (hs : t.block.sig = true) (giveUp : Bool) (success : TaskPos) :
    t.wait giveUp success = some ⟨success, t.block.clearSignal.respond .host 1⟩ := by
  simp [TaskSystem.wait, State.issue_of_exec rfl (exec_acquire_pending hs)]

theorem TaskSystem.wait_of_empty {t : TaskSystem} (hs : t.block.sig = false) (giveUp : Bool) (success : TaskPos) :
    t.wait giveUp success = some ⟨if giveUp = true then .publishingBad else t.pos, t.block.respond .host 0⟩ := by
  cases giveUp <;> simp [TaskSystem.wait, State.issue_of_exec rfl (exec_acquire_empty hs)]

/-! ## Everything a move can do (rules R240 to R252) -/

/-- The operation of a move that leaves the task where it stands. -/
def AgentMove.aside : AgentMove → Option Instr
  | .update => some .evUpdate
  | .capture v => some (.evCapture v)
  | .readerRead => some (.rdDistance .reader)
  | .observe o => some o.instr
  | .startCycle | .proceed _ => none

/-- The two waits, each with the position its success leads to. -/
inductive TaskPos.Wait : TaskPos → TaskPos → Prop where
  | trigger : Wait .awaitingTriggerDone .arming
  | echo : Wait .awaitingEcho .converting

/-- Everything a move can do: an operation beside the task, or a step of the task in its cycle with the effect of the step's
operation on the block. -/
inductive TaskSystem.Move : TaskSystem → AgentMove → TaskSystem → Prop where
  | aside {m : AgentMove} {i : Instr} (pos : TaskPos) {s s' : State} (hm : m.aside = some i) (h : Effect s i s') :
      Move ⟨pos, s⟩ m ⟨pos, s'⟩
  | abandon (pos : TaskPos) {s s' : State} (h : Effect s .startCycle s') : Move ⟨pos, s⟩ .startCycle ⟨.triggering, s'⟩
  | wake (measured giveUp : Bool) {s s' : State} (h : Effect s .startCycle s') :
      Move ⟨.sleeping measured, s⟩ (.proceed giveUp) ⟨.triggering, s'⟩
  | trigger (giveUp : Bool) (s : State) : Move ⟨.triggering, s⟩ (.proceed giveUp) ⟨.awaitingTriggerDone, s⟩
  | succeed (giveUp : Bool) {wait success : TaskPos} (hw : wait.Wait success) {s s' : State} (hs : s.sig = true)
      (h : Effect s .acquire s') : Move ⟨wait, s⟩ (.proceed giveUp) ⟨success, s'⟩
  | fail {wait success : TaskPos} (hw : wait.Wait success) {s s' : State} (hs : s.sig = false)
      (h : Effect s .acquire s') : Move ⟨wait, s⟩ (.proceed true) ⟨.publishingBad, s'⟩
  | stay {wait success : TaskPos} (hw : wait.Wait success) {s s' : State} (hs : s.sig = false)
      (h : Effect s .acquire s') : Move ⟨wait, s⟩ (.proceed false) ⟨wait, s'⟩
  | arm (giveUp : Bool) {s s' : State} (h : Effect s .armEcho s') :
      Move ⟨.arming, s⟩ (.proceed giveUp) ⟨.awaitingEcho, s'⟩
  | convert (giveUp : Bool) {s s' : State} (h : Effect s .convertPublish s') :
      Move ⟨.converting, s⟩ (.proceed giveUp) ⟨.sleeping true, s'⟩
  | publishBad (giveUp : Bool) {s s' : State} (h : Effect s .publishBad s') :
      Move ⟨.publishingBad, s⟩ (.proceed giveUp) ⟨.sleeping false, s'⟩

theorem Observation.wellFormed_instr (o : Observation) : o.instr.wellFormed = true := by
  cases o with
  | distance | status => rfl
  | sample e => cases e <;> rfl

theorem AgentMove.wellFormed_of_aside {m : AgentMove} {i : Instr} (h : m.aside = some i) : i.wellFormed = true := by
  cases m with
  | observe o => cases h; exact o.wellFormed_instr
  | update | capture | readerRead => cases h; rfl
  | startCycle | proceed => cases h

/-- A wait ends in success on a pending signal, and otherwise as the task likes. -/
theorem TaskSystem.wait_spec {pos success : TaskPos} (hw : pos.Wait success) (s : State) (giveUp : Bool) :
    ∃ t', TaskSystem.wait ⟨pos, s⟩ giveUp success = some t' ∧ TaskSystem.Move ⟨pos, s⟩ (.proceed giveUp) t' := by
  cases hs : s.sig with
  | true => exact ⟨_, TaskSystem.wait_of_pending hs giveUp success, .succeed giveUp hw hs (.acquireTaken hs)⟩
  | false =>
    refine ⟨_, TaskSystem.wait_of_empty hs giveUp success, ?_⟩
    cases giveUp with
    | true => exact .fail hw hs (.acquireEmpty hs)
    | false => exact .stay hw hs (.acquireEmpty hs)

theorem TaskSystem.proceed_spec (t : TaskSystem) (giveUp : Bool) :
    ∃ t', t.proceed giveUp = some t' ∧ t.Move (.proceed giveUp) t' := by
  obtain ⟨pos, s⟩ := t
  cases pos with
  | sleeping measured =>
    obtain ⟨u, hu, heffect⟩ := s.issue_map (i := .startCycle) rfl (⟨.triggering, ·⟩)
    exact ⟨_, hu, .wake measured giveUp heffect⟩
  | triggering => exact ⟨_, rfl, .trigger giveUp s⟩
  | awaitingTriggerDone => exact TaskSystem.wait_spec .trigger s giveUp
  | arming =>
    obtain ⟨u, hu, heffect⟩ := s.issue_map (i := .armEcho) rfl (⟨.awaitingEcho, ·⟩)
    exact ⟨_, hu, .arm giveUp heffect⟩
  | awaitingEcho => exact TaskSystem.wait_spec .echo s giveUp
  | converting =>
    obtain ⟨u, hu, heffect⟩ := s.issue_map (i := .convertPublish) rfl (⟨.sleeping true, ·⟩)
    exact ⟨_, hu, .convert giveUp heffect⟩
  | publishingBad =>
    obtain ⟨u, hu, heffect⟩ := s.issue_map (i := .publishBad) rfl (⟨.sleeping false, ·⟩)
    exact ⟨_, hu, .publishBad giveUp heffect⟩

/-- Every move is there, and does one of the listed things. -/
theorem TaskSystem.act_spec (t : TaskSystem) (m : AgentMove) : ∃ t', t.act m = some t' ∧ t.Move m t' := by
  cases hm : m.aside with
  | some i =>
    obtain ⟨u, hu, heffect⟩ := t.block.issue_map (AgentMove.wellFormed_of_aside hm) (⟨t.pos, ·⟩)
    refine ⟨_, ?_, .aside t.pos hm heffect⟩
    cases m with
    | startCycle | proceed => cases hm
    | _ => cases hm; exact hu
  | none =>
    cases m with
    | startCycle =>
      obtain ⟨u, hu, heffect⟩ := t.block.issue_map (i := .startCycle) rfl (⟨.triggering, ·⟩)
      exact ⟨_, hu, .abandon t.pos heffect⟩
    | proceed giveUp => exact t.proceed_spec giveUp
    | _ => cases hm

theorem TaskSystem.act_move {t t' : TaskSystem} {m : AgentMove} (h : t.act m = some t') : t.Move m t' := by
  obtain ⟨u, hu, hmove⟩ := t.act_spec m
  cases hu.symm.trans h
  exact hmove

/-- On the block a move is nothing or one well-formed operation. -/
theorem TaskSystem.Move.block_cases {t t' : TaskSystem} {m : AgentMove} (h : t.Move m t') :
    t'.block = t.block ∨ ∃ i, i.wellFormed = true ∧ Effect t.block i t'.block := by
  cases h with
  | trigger => exact .inl rfl
  | aside _ hm h => exact .inr ⟨_, AgentMove.wellFormed_of_aside hm, h⟩
  | abandon _ h | wake _ _ h | succeed _ _ _ h | fail _ _ h | stay _ _ h | arm _ h | convert _ h | publishBad _ h =>
    exact .inr ⟨_, rfl, h⟩

/-! ## What every move keeps (rules R237, R243 to R246, R249) -/

/-- A measured duration has a rising edge behind it. -/
def State.MeasuredAfterRise (s : State) : Prop := s.rawDuration ≠ none → s.capFirst ≠ none

theorem Effect.keeps_measuredAfterRise {i : Instr} {s t : State} (h : Effect s i t) (hs : s.MeasuredAfterRise) :
    t.MeasuredAfterRise := by
  cases h with
  | captureRising v => exact fun _ => Option.some_ne_none v
  | captureFalling v first _ _ hf => exact fun _ => hf ▸ Option.some_ne_none first
  | _ => exact hs

/-- A well-formed operation is not refused. -/
theorem Effect.refused_eq {i : Instr} {s t : State} (h : Effect s i t) (hw : i.wellFormed = true) :
    t.refused = s.refused := by
  rcases h.fault_cases hw with ⟨e, -, -, rfl⟩ | ⟨-, -, -, hrefused, -⟩
  · rfl
  · exact hrefused

/-- `t` still gives the task what `s` gave it: a duration, the phase Echo, and behind a pending signal the same phase and, if
the signal is raised in Echo, a duration. -/
structure State.Carries (s t : State) : Prop where
  rawDuration : s.rawDuration ≠ none → t.rawDuration ≠ none
  echo : s.phase = .echo → t.phase = .echo
  signal : t.sig = true → s.sig = true ∨ (t.phase = .echo ∧ (s.phase = .echo → t.rawDuration ≠ none))

theorem State.carries_of_eq {s t : State} (hraw : t.rawDuration = s.rawDuration) (hphase : t.phase = s.phase)
    (hsig : t.sig = s.sig) : s.Carries t :=
  ⟨fun h => hraw ▸ h, fun h => hphase ▸ h, fun h => .inl (hsig ▸ h)⟩

/-- Each guarantee rests on what `State.Carries` preserves. -/
theorem TaskPos.Guarantee.of_carries {s t : State} (h : s.Carries t) {pos : TaskPos} (hs : pos.Guarantee s) :
    pos.Guarantee t := by
  obtain ⟨hraw, hecho, hsignal⟩ := h
  cases pos with
  | sleeping measured => exact fun hm => hraw (hs hm)
  | triggering | awaitingTriggerDone => exact fun ht => (hsignal ht).elim (fun h => hecho (hs h)) And.left
  | arming | awaitingEcho =>
    obtain ⟨hphase, hduration⟩ := hs
    exact ⟨hecho hphase, fun ht => (hsignal ht).elim (fun h => hraw (hduration h)) (fun h => h.right hphase)⟩
  | converting => exact ⟨hecho hs.left, hraw hs.right⟩
  | publishingBad => trivial

/-- The event source raises the signal with the phase Echo, and in Echo only with a duration. -/
theorem Effect.event_carries {i : Instr} {s t : State} (h : Effect s i t) (hc : opClass i = 0x0) : s.Carries t := by
  obtain ⟨-, hphase, -⟩ := h.event_writes hc
  refine ⟨h.keeps_element (e := .rawDuration), fun hs => hphase.elim (·.trans hs) id, fun ht => ?_⟩
  cases h with
  | updateTrigger hp => exact .inr ⟨rfl, fun hs => by cases hp.symm.trans hs⟩
  | captureFalling v first hp => exact .inr ⟨hp, fun _ => Option.some_ne_none _⟩
  | startCycle | acquireTaken => cases ht
  | _ => exact .inl ht

theorem Effect.read_carries {i : Instr} {s t : State} (h : Effect s i t) (hc : opClass i = 0x2) : s.Carries t := by
  obtain ⟨hphase, -, -, -, hraw, hsig, -⟩ := h.read_writes_nothing hc
  exact State.carries_of_eq hraw hphase hsig

/-- What is performed beside the task is an event or a read. -/
theorem AgentMove.opClass_of_aside {m : AgentMove} {i : Instr} (h : m.aside = some i) :
    opClass i = 0x0 ∨ opClass i = 0x2 := by
  cases m with
  | update => cases h; exact .inl rfl
  | capture v => cases h; exact .inl (by simp [opClass, Instr.opcode, Opcode.code])
  | readerRead => cases h; exact .inr rfl
  | observe o =>
    cases h
    refine .inr ?_
    cases o with
    | distance | status => rfl
    | sample e => cases e <;> rfl
  | startCycle | proceed => cases h

/-- ACQUIRE leaves no signal and takes nothing else from the task. -/
theorem Effect.acquire_leaves {s t : State} (h : Effect s .acquire t) :
    t.sig = false ∧ t.phase = s.phase ∧ t.rawDuration = s.rawDuration := by
  cases h with
  | acquireTaken => exact ⟨rfl, rfl, rfl⟩
  | acquireEmpty hs => exact ⟨hs, rfl, rfl⟩

/-- Each step of the task hands over what its next position guarantees. -/
theorem TaskSystem.Move.keeps_guarantee {t t' : TaskSystem} {m : AgentMove} (h : t.Move m t')
    (hs : t.pos.Guarantee t.block) : t'.pos.Guarantee t'.block := by
  cases h with
  | aside pos hm heffect =>
    exact hs.of_carries ((AgentMove.opClass_of_aside hm).elim heffect.event_carries heffect.read_carries)
  | abandon _ heffect | wake _ _ heffect => cases heffect; exact nofun
  | trigger => exact hs
  | succeed _ hw hsig heffect =>
    obtain ⟨hclear, hphase, hraw⟩ := heffect.acquire_leaves
    cases hw with
    | trigger => exact ⟨hphase.trans (hs hsig), fun h => by cases hclear.symm.trans h⟩
    | echo => exact ⟨hphase.trans hs.left, hraw ▸ hs.right hsig⟩
  | fail => trivial
  | stay _ hsig heffect =>
    obtain ⟨hclear, hphase, hraw⟩ := heffect.acquire_leaves
    exact hs.of_carries (State.carries_of_eq hraw hphase (hclear.trans hsig.symm))
  | arm _ heffect => cases heffect; exact hs
  | convert _ heffect => exact fun _ => heffect.keeps_element (e := .rawDuration) hs.right
  | publishBad => exact nofun

theorem TaskSystem.Move.keeps_guaranteed {t t' : TaskSystem} {m : AgentMove} (h : t.Move m t') (hs : t.Guaranteed) :
    t'.Guaranteed := by
  obtain ⟨hrefused, hlaws, hrise, hpos⟩ := hs
  refine ⟨?_, ?_, ?_, h.keeps_guarantee hpos⟩
  all_goals rcases h.block_cases with hblock | ⟨i, hw, heffect⟩
  · exact hblock ▸ hrefused
  · exact (heffect.refused_eq hw).trans hrefused
  · exact hblock ▸ hlaws
  · exact heffect.keeps_captureLaws hlaws
  · exact hblock ▸ hrise
  · exact heffect.keeps_measuredAfterRise hrise

/-! ## Which moves fault (rules R203, R256) -/

theorem Effect.faulted_eq {i : Instr} {s t : State} (h : Effect s i t) (hw : i.wellFormed = true)
    (hread : s.unwrittenRead i = none) : t.faulted = s.faulted := by
  rcases h.fault_cases hw with ⟨e, he, -⟩ | ⟨-, hfaulted, -⟩
  · cases hread.symm.trans he
  · exact hfaulted

/-- Where a duration is held, every sample holds a value: CAP_SECOND by R40, and CAP_FIRST as the rising edge behind it. -/
theorem State.element_ne_none_of_measured {s : State} (hlaws : s.CaptureLaws) (hrise : s.MeasuredAfterRise)
    (hraw : s.rawDuration ≠ none) (e : Element) : s.element e ≠ none := by
  obtain ⟨-, hpair⟩ := hlaws
  cases e with
  | capFirst => exact hrise hraw
  | capSecond => exact fun h => hraw (hpair.mpr h)
  | rawDuration => exact hraw

/-- R256: after a successful echo wait of the cycle, which is where a heedful host reads a sample, a duration is held. -/
theorem TaskSystem.Guaranteed.measured_of_heedsHazard {t : TaskSystem} (ht : t.Guaranteed) {e : Element}
    (h : (Observation.sample e).heedsHazard t.pos = true) : t.block.rawDuration ≠ none := by
  obtain ⟨pos, s⟩ := t
  obtain ⟨-, -, -, hpos⟩ := ht
  cases pos with
  | converting => exact hpos.right
  | sleeping measured =>
    cases measured with
    | true => exact hpos rfl
    | false => cases h
  | _ => cases h

@[simp] theorem State.unwrittenRead_sample (s : State) (e : Element) :
    s.unwrittenRead (Observation.sample e).instr = s.unwritten e := by cases e <;> rfl

/-- Beside the task only the read of a sample that holds `⊥` faults, for no falling edge is awaited without a rising edge
(R39). -/
theorem Effect.faulted_of_aside {m : AgentMove} {i : Instr} {s t : State} (h : Effect s i t) (hm : m.aside = some i)
    (hlaws : s.CaptureLaws) : t.faulted = s.faulted ∨ ∃ e, m = .observe (.sample e) ∧ s.element e = none := by
  cases m with
  | update | readerRead => cases hm; exact .inl (h.faulted_eq rfl rfl)
  | capture v =>
    cases hm
    cases h with
    | captureFault _ _ hedge hfirst => exact absurd hfirst (hlaws.left hedge)
    | _ => exact .inl rfl
  | observe o =>
    cases hm
    cases o with
    | distance | status => exact .inl (h.faulted_eq rfl rfl)
    | sample e =>
      by_cases he : s.element e = none
      · exact .inr ⟨e, rfl, he⟩
      · exact .inl (h.faulted_eq (Observation.wellFormed_instr _) (by simp [he]))
  | startCycle | proceed => cases hm

/-- The task's own steps fault nothing: only CONVERT_PUBLISH reads an element, and it finds the duration guaranteed to it. -/
theorem TaskSystem.Move.fault_cases {t t' : TaskSystem} {m : AgentMove} (h : t.Move m t') (ht : t.Guaranteed) :
    t'.block.faulted = t.block.faulted ∨
      ∃ e, m = .observe (.sample e) ∧ m.heedsHazard t.pos = false ∧ t.block.element e = none := by
  have ⟨_, hlaws, hrise, hpos⟩ := ht
  cases h with
  | aside pos hm heffect =>
    rcases heffect.faulted_of_aside hm hlaws with hfaulted | ⟨e, rfl, he⟩
    · exact .inl hfaulted
    · refine .inr ⟨e, rfl, Bool.eq_false_iff.mpr fun hheeds => ?_, he⟩
      exact State.element_ne_none_of_measured hlaws hrise (ht.measured_of_heedsHazard (e := e) hheeds) e he
  | trigger => exact .inl rfl
  | convert _ heffect =>
    exact .inl (heffect.faulted_eq rfl ((State.unwritten_eq_none _ .rawDuration).mpr hpos.right))
  | abandon _ heffect | wake _ _ heffect | succeed _ _ _ heffect | fail _ _ heffect | stay _ _ heffect | arm _ heffect
  | publishBad _ heffect => exact .inl (heffect.faulted_eq rfl rfl)

/-- Settles O48: a move is a listed one, which keeps the guarantees and faults only by an unheeding read of `⊥`. -/
theorem taskKeepsItsInvariant : Obligations.TaskKeepsItsInvariant := by
  intro t t' m h
  have hmove := TaskSystem.act_move h
  refine ⟨hmove.keeps_guaranteed, fun ⟨ht, hgood⟩ hheeds => ?_, hmove.fault_cases⟩
  have ht' := hmove.keeps_guaranteed ht
  refine ⟨ht', ?_, ht'.left⟩
  rcases hmove.fault_cases ht with hfaulted | ⟨e, -, hunheeding, -⟩
  · exact hfaulted.trans hgood.left
  · cases hheeds.symm.trans hunheeding

/-! ## The successful wait and the publication (rules R245, R246, R248) -/

/-- Settles O50: the signal decides between success and the task's liberty, and ACQUIRE leaves none. -/
theorem waitSucceedsExactlyOnASignal : Obligations.WaitSucceedsExactlyOnASignal := by
  rintro ⟨pos, s⟩ giveUp hwait
  obtain ⟨t', hact, hmove⟩ := TaskSystem.act_spec ⟨pos, s⟩ (.proceed giveUp)
  refine ⟨t', hact, ?_⟩
  cases hmove with
  | aside _ hm => cases hm
  | succeed _ hw hsig heffect =>
    refine ⟨heffect.acquire_leaves.left, ?_⟩
    cases hw <;> simp [hsig]
  | fail _ hsig heffect | stay _ hsig heffect => exact ⟨heffect.acquire_leaves.left, by simp [hsig]⟩
  | _ => simp at hwait

/-- Rule R140, as the task issues it. -/
theorem TaskSystem.act_converting {t : TaskSystem} {raw : Counter} (hpos : t.pos = .converting)
    (hraw : t.block.rawDuration = some raw) (giveUp : Bool) :
    t.act (.proceed giveUp) = some ⟨.sleeping true,
      State.respond { t.block with distance := encS32 (convert t.block.cfg raw) } .host 0⟩ := by
  simp [TaskSystem.act, TaskSystem.proceed, hpos, State.issue_of_exec rfl (exec_convertPublish_of_some hraw)]

theorem TaskSystem.Guaranteed.exists_rawDuration {t : TaskSystem} (ht : t.Guaranteed) (hpos : t.pos = .converting) :
    ∃ raw, t.block.rawDuration = some raw := by
  obtain ⟨-, -, -, hguarantee⟩ := ht
  rw [hpos] at hguarantee
  exact Option.ne_none_iff_exists'.mp hguarantee.right

/-- Settles O51: the position guarantees a duration, and CONVERT_PUBLISH publishes the duration it finds. -/
theorem taskConversionNeverFaults : Obligations.TaskConversionNeverFaults := by
  intro t giveUp ht hpos
  obtain ⟨raw, hraw⟩ := ht.exists_rawDuration hpos
  exact ⟨raw, _, hraw, TaskSystem.act_converting hpos hraw giveUp, rfl, rfl, rfl⟩

/-- DISTANCE changes only as the task's publication, with which it comes to sleep. -/
theorem TaskSystem.Move.publishes_of_distance_ne {t t' : TaskSystem} {m : AgentMove} (h : t.Move m t')
    (hne : t'.block.distance ≠ t.block.distance) : ∃ giveUp, m = .proceed giveUp ∧
      ((t.pos = .converting ∧ t'.pos = .sleeping true) ∨ (t.pos = .publishingBad ∧ t'.pos = .sleeping false)) := by
  cases h with
  | aside _ hm heffect =>
    rcases AgentMove.opClass_of_aside hm with hc | hc
    · exact absurd (heffect.event_writes hc).left hne
    · obtain ⟨-, -, -, -, -, -, -, hdistance⟩ := heffect.read_writes_nothing hc
      exact absurd hdistance hne
  | trigger => exact absurd rfl hne
  | convert giveUp => exact ⟨giveUp, rfl, .inl ⟨rfl, rfl⟩⟩
  | publishBad giveUp => exact ⟨giveUp, rfl, .inr ⟨rfl, rfl⟩⟩
  | abandon _ heffect | wake _ _ heffect | succeed _ _ _ heffect | fail _ _ heffect | stay _ _ heffect | arm _ heffect =>
    exact absurd (heffect.distance_eq rfl) hne

/-! ## The ways to and from sleep, the publications and the start of a cycle (rules R248, R250) -/

theorem TaskSystem.Move.comes_to_sleep {t : TaskSystem} {m : AgentMove} {measured : Bool} {s' : State}
    (h : t.Move m ⟨.sleeping measured, s'⟩) (hne : t.pos ≠ .sleeping measured) :
    (∃ giveUp, m = .proceed giveUp) ∧ t.pos = if measured = true then .converting else .publishingBad := by
  cases h with
  | aside => exact absurd rfl hne
  | succeed _ hw | stay hw => cases hw
  | convert giveUp | publishBad giveUp => exact ⟨⟨giveUp, rfl⟩, rfl⟩

theorem TaskSystem.Move.begins_cycle {t : TaskSystem} {m : AgentMove} {s' : State} (h : t.Move m ⟨.triggering, s'⟩)
    (hne : t.pos ≠ .triggering) :
    m = .startCycle ∨ ∃ measured giveUp, t.pos = .sleeping measured ∧ m = .proceed giveUp := by
  cases h with
  | aside => exact absurd rfl hne
  | abandon => exact .inl rfl
  | wake measured giveUp => exact .inr ⟨measured, giveUp, rfl, rfl⟩
  | succeed _ hw | stay hw => cases hw

theorem TaskSystem.Move.comes_to_converting {t : TaskSystem} {m : AgentMove} {s' : State}
    (h : t.Move m ⟨.converting, s'⟩) : t.pos = .converting ∨ t.pos = .awaitingEcho := by
  cases h with
  | aside => exact .inl rfl
  | succeed _ hw => cases hw; exact .inr rfl
  | stay hw => cases hw

theorem TaskSystem.Move.comes_to_publishingBad {t : TaskSystem} {m : AgentMove} {s' : State}
    (h : t.Move m ⟨.publishingBad, s'⟩) :
    t.pos = .publishingBad ∨ t.pos = .awaitingTriggerDone ∨ t.pos = .awaitingEcho := by
  cases h with
  | aside => exact .inl rfl
  | fail hw =>
    cases hw with
    | trigger => exact .inr (.inl rfl)
    | echo => exact .inr (.inr rfl)
  | succeed _ hw | stay hw => cases hw

theorem TaskSystem.Move.leaves_sleep {t' : TaskSystem} {m : AgentMove} {measured : Bool} {s : State}
    (h : TaskSystem.Move ⟨.sleeping measured, s⟩ m t') : t'.pos = .sleeping measured ∨ t'.pos = .triggering := by
  cases h with
  | aside => exact .inl rfl
  | abandon | wake => exact .inr rfl
  | succeed _ hw | fail hw | stay hw => cases hw

theorem TaskSystem.Move.leaves_converting {t' : TaskSystem} {m : AgentMove} {s : State}
    (h : TaskSystem.Move ⟨.converting, s⟩ m t') :
    t'.pos = .converting ∨ t'.pos = .sleeping true ∨ (m = .startCycle ∧ t'.pos = .triggering) := by
  cases h with
  | aside => exact .inl rfl
  | abandon => exact .inr (.inr ⟨rfl, rfl⟩)
  | succeed _ hw | fail hw | stay hw => cases hw
  | convert => exact .inr (.inl rfl)

theorem TaskSystem.Move.leaves_publishingBad {t' : TaskSystem} {m : AgentMove} {s : State}
    (h : TaskSystem.Move ⟨.publishingBad, s⟩ m t') :
    t'.pos = .publishingBad ∨ t'.pos = .sleeping false ∨ (m = .startCycle ∧ t'.pos = .triggering) := by
  cases h with
  | aside => exact .inl rfl
  | abandon => exact .inr (.inr ⟨rfl, rfl⟩)
  | succeed _ hw | fail hw | stay hw => cases hw
  | publishBad => exact .inr (.inl rfl)

theorem TaskSystem.Move.publishes_sentinel {t' : TaskSystem} {giveUp : Bool} {s : State}
    (h : TaskSystem.Move ⟨.publishingBad, s⟩ (.proceed giveUp) t') : t'.block.distance.toInt = badValue := by
  cases h with
  | aside _ hm => cases hm
  | succeed _ hw | fail hw | stay hw => cases hw
  | publishBad _ heffect =>
    cases heffect
    exact toInt_encS32 (by decide) (by decide)

/-- Settles O52: a clause for what a publication writes, and one for each way to or from sleep, a publication and the start
of a cycle. -/
theorem taskPublishesOnceAtTheEndOfACycle : Obligations.TaskPublishesOnceAtTheEndOfACycle := by
  rintro ⟨pos, s⟩ ⟨pos', s'⟩ m h
  have hmove := TaskSystem.act_move h
  refine ⟨hmove.publishes_of_distance_ne, ?_, ?_, fun ht hpos => ?_, ?_, ?_, ?_, ?_, ?_, ?_⟩
  · rintro measured rfl
    exact hmove.comes_to_sleep
  · rintro rfl ⟨giveUp, rfl⟩
    exact hmove.publishes_sentinel
  · rintro ⟨giveUp, rfl⟩
    obtain ⟨raw, hraw⟩ := ht.exists_rawDuration hpos
    cases (TaskSystem.act_converting hpos hraw giveUp).symm.trans h
    exact ⟨raw, hraw, rfl⟩
  · rintro rfl
    exact hmove.begins_cycle
  · rintro measured rfl
    exact hmove.leaves_sleep
  · rintro rfl
    exact hmove.leaves_converting
  · rintro rfl
    exact hmove.leaves_publishingBad
  · rintro rfl
    exact hmove.comes_to_converting
  · rintro rfl
    exact hmove.comes_to_publishingBad

/-! ## The liberties of the host (rule R250) -/

/-- Settles O53: the move is START_CYCLE, whose one update depends on no element. -/
theorem taskMayStartACycleAtAnyTime : Obligations.TaskMayStartACycleAtAnyTime := by
  intro t
  have hissue := State.issue_of_exec (i := .startCycle) rfl (startCycleResetsPhaseEdgeAndSignal t.block)
  exact ⟨_, congrArg (Option.map _) hissue, rfl, rfl, rfl, rfl, rfl⟩

theorem exec_sample (e : Element) (s : State) : exec (Observation.sample e).instr s = .next (s.respondElement e) := by
  cases e <;> rfl

/-- An observation leaves the task where it stands and the block as the read leaves it. -/
theorem TaskSystem.act_observe {t : TaskSystem} {o : Observation} {u : State} (h : exec o.instr t.block = .next u) :
    t.act (.observe o) = some ⟨t.pos, u⟩ :=
  congrArg (Option.map _) (State.issue_of_exec o.wellFormed_instr h)

/-- Settles O54: each read responds, and a sample's read responds or takes the fault as its element holds a value or not. -/
theorem hostMayObserveAtAnyTime : Obligations.HostMayObserveAtAnyTime := by
  intro t o
  cases o with
  | distance => exact ⟨_, TaskSystem.act_observe (o := .distance) (exec_rdDistance (.inl rfl) t.block), rfl, rfl⟩
  | status => exact ⟨_, TaskSystem.act_observe (o := .status) rfl, rfl, rfl⟩
  | sample e =>
    refine ⟨_, TaskSystem.act_observe (exec_sample e t.block), rfl, ?_⟩
    dsimp only
    cases he : t.block.element e with
    | some v => exact State.respondElement_of_some he
    | none => exact State.readElement_of_none he _

/-! ## Reset and boot (rules R230, R235, R236) -/

theorem State.reset_element (e : Element) : State.reset.element e = none := by
  cases e <;> rfl

/-- Settles O33: the values are those written in `State.reset`, the sentinel among them, and a step never returns a written
element to `⊥`. -/
theorem resetValues : Obligations.ResetValues := by
  refine ⟨rfl, rfl, rfl, rfl, toInt_encS32 (by decide) (by decide), rfl, rfl, rfl, rfl, rfl, rfl, fun s t e hs h => ?_⟩
  rw [State.reset_element]
  exact step_keeps_element h hs

/-- Settles O43: reset is the start of a run in the default configuration. -/
theorem resetMeetsTheInvariant : Obligations.ResetMeetsTheInvariant := State.started_inv wellFormed_default []

/-- Settles O49: the task sleeps without a measurement, and the block carries no mark and holds no sample. -/
theorem bootMeetsTheTaskInvariant : Obligations.BootMeetsTheTaskInvariant := by
  obtain ⟨-, hlaws, -⟩ := resetMeetsTheInvariant
  exact ⟨⟨rfl, hlaws, absurd rfl, nofun⟩, rfl, rfl⟩

end Sys2Proof.Machine

end
